-- ==== Sys2Proof/Word.lean ====
section
/-! DEFINITION. Words: bytes, 32-bit addresses, clock values and operand fields, and their plainest arithmetic. -/

namespace Sys2Proof

/-- A byte of shared memory. -/
abbrev Byte := BitVec 8

/-- A one-byte field. -/
abbrev U8 := BitVec 8

/-- A two-byte field (11_formats.md). -/
abbrev U16 := BitVec 16

/-- A four-byte field, an address or a tag (11_formats.md). -/
abbrev U32 := BitVec 32

/-- A value of the line clock: milliseconds modulo 2^32 (R144). -/
abbrev Clock := BitVec 32

end Sys2Proof
end

