-- ==== Sys2Proof/Config.lean ====
section
/-! DEFINITION. What the part fixes: table sizes, lengths and limits of the rules, and the values the spec leaves open. -/

namespace Sys2Proof

/-- The line constants, in the order of the table of R143. -/
structure Consts where
  p : Nat
  q : Nat
  dEntry : Nat
  zone1 : Nat
  zone2 : Nat
  zone3 : Nat
  zone4 : Nat
  cap : Nat
  reserve : Nat
  rs : Nat
  overlap : Nat
  guardLen : Nat
  gap : Nat
  overtravel : Nat
  window : Nat
  missTolerance : Nat
  stopOnTwo : Bool
  startTimeout : Nat
  spliceTimeout : Nat
  deriving DecidableEq, Repr, Inhabited

namespace Config

/-- DESIGN CHOICE (log entry 11, safe): a free value. The line constants are unset at power-on (R126) and no rule gives a
value while they are; whatever reads one then reads this constant, of which nothing can be proved. -/
opaque unsetConsts : Consts

/-- R165: entries of the held-request table. -/
def tableSize : Nat := 16
/-- R166, step 7: Await Panel Exit requests held at most. -/
def awaitLimit : Nat := 4
/-- R49: order records. -/
def orderLimit : Nat := 32
/-- R39: roll records. -/
def rollLimit : Nat := 8
/-- R88: segment records. -/
def segLimit : Nat := 128
/-- R92: panel records. -/
def panelLimit : Nat := 64
/-- R76: pending marks. -/
def markLimit : Nat := 8
/-- R30: length of a full chunk; also the length of a heat cell (R116). -/
def chunkLen : Nat := 500
/-- R85: length of a trial chunk. -/
def trialLen : Nat := 200
/-- R116: the chest path, 64 cells of 500 units. -/
def chestLen : Nat := 32000
/-- R142: the feed-stall deadline, in milliseconds. -/
def stallTime : Nat := 10000
/-- R114: how long a condensate drain stays open, in milliseconds. -/
def purgeTime : Nat := 2000
/-- R119: where a dose stops. -/
def doseMax : Nat := 16777215
/-- R107, R109: the highest effective reading. -/
def tempMax : Nat := 2500
/-- R100, 11_formats.md: bytes of a panel record. -/
def panelBytes : Nat := 72
/-- 11_formats.md: bytes of the constants layout. -/
def constsBytes : Nat := 36

end Config

end Sys2Proof
end

