-- ==== Sys2Proof/Syntax.lean ====
section
/-! DEFINITION. The commands: one constructor of `Instr` for each row of spec/opcode_table.json, and the operands they carry. -/

namespace Sys2Proof

/-- A run of addresses in shared memory. -/
structure Span where
  base : U32
  len : Nat
  deriving DecidableEq, Repr

/-- What came about outside the part since the command before: DESIGN CHOICE (log entries 1, 2).
`elapsed` milliseconds passed on the line clock (R144), the line computer wrote `writes` to shared memory, in order, and
during the command an access of the part that touches a span of `readFaults` or `writeFaults` bus-faults (R172). -/
structure Env where
  elapsed : Nat
  writes : List (U32 × Byte)
  readFaults : List Span
  writeFaults : List Span
  deriving DecidableEq, Repr

/-- No time passed, nothing written, no bus fault. -/
def Env.quiet : Env := ⟨0, [], [], []⟩

/-- The two spindles of the turret (R146). -/
inductive SpindleId where
  | a | b
  deriving DecidableEq, Repr

/-- The four zones of the chest, from the entrance (R107). -/
inductive ZoneId where
  | z1 | z2 | z3 | z4
  deriving DecidableEq, Repr

/-- The two assembly buffers of the library (R7). -/
inductive BufferId where
  | a | b
  deriving DecidableEq, Repr

/-- A crease result of a stroke (R67, R85). -/
inductive Crease where
  | present | absent | early | late
  deriving DecidableEq, Repr

/-- A sample of a zone's converter: a fault indication or a reading of 0..4,095 (R109). -/
inductive Sample where
  | fault
  | reading (t : BitVec 12)
  deriving DecidableEq, Repr

/-- The levels of the inputs as they stand at power-on (R135, R146, R154). -/
structure Levels where
  readyA : Bool
  readyB : Bool
  coreA : Bool
  coreB : Bool
  splice : Bool
  estop : Bool
  drive : Bool
  deriving DecidableEq, Repr

/-- One segment of a data area: an address and a length (R167). -/
structure DataSeg where
  addr : U32
  len : U32
  deriving DecidableEq, Repr

/-- How a request describes its data area (R167): one contiguous area of 0..65,535 bytes, or a list of segments. -/
inductive DataArea where
  | contiguous (addr : U32) (len : U16)
  | segmented (segs : List DataSeg)
  deriving DecidableEq, Repr

/-- What the port knows of a request from its slot and its header (R166): block address, sense allocation, key, data area. -/
structure Req where
  block : U32
  sense : U8
  key : U32
  data : DataArea
  deriving DecidableEq, Repr

/-- The parameter area of Measure Pattern (11_formats.md). -/
structure MeasureArgs where
  size : U8
  cls : U8
  deriving DecidableEq, Repr

/-- The parameter area of Set Fibre Class (11_formats.md). -/
structure ClassArgs where
  cls : U8
  theta : U16
  tmax : U16
  dose : U32
  k : U16
  deriving DecidableEq, Repr

/-- The parameter area of Register Roll (11_formats.md). -/
structure RollArgs where
  len : U32
  cls : U8
  width : U16
  deriving DecidableEq, Repr

/-- The parameter area of Amend Roll, with its three change flags (11_formats.md). -/
structure AmendArgs where
  setLen : Bool
  setCls : Bool
  setWidth : Bool
  len : U32
  cls : U8
  width : U16
  deriving DecidableEq, Repr

/-- The parameter area and the notify option of Place Order (11_formats.md). -/
structure OrderArgs where
  notify : Bool
  pattern : U8
  size : U8
  cls : U8
  reg : U8
  n : U16
  remakes : U8
  mult : U8
  offset : U16
  rep : U16
  deriving DecidableEq, Repr

/-- The parameter area of Set Zones: change flags, enable edits and the ten values of R124 (11_formats.md). -/
structure ZonesArgs where
  flags : U16
  edits : U8
  sp1 : U16
  sp2 : U16
  sp3 : U16
  sp4 : U16
  band : U16
  drop : U16
  stepUp : U16
  stepDown : U16
  leapAt : U16
  leapDown : U16
  deriving DecidableEq, Repr

/-- What a request asks: its kind with its option and its parameter area (R177, 11_formats.md). -/
inductive Call where
  | definePattern
  | amendPattern
  | readPattern (alternate : Bool)
  | retirePattern
  | measurePattern (args : MeasureArgs)
  | setFibreClass (args : ClassArgs)
  | clearFibreClass (cls : U8)
  | readFibreClass (cls : U8)
  | registerRoll (args : RollArgs)
  | amendRoll (args : AmendArgs)
  | readRoll
  | retireRoll
  | placeOrder (args : OrderArgs)
  | readOrder
  | cancelOrder (cut : Bool)
  | alignBlade
  | readPanel
  | awaitPanelExit
  | releasePanel
  | readWebMap
  | purgeWeb
  | setZones (args : ZonesArgs)
  | readZones (cells : Bool)
  | energise
  | deEnergise
  | thread
  | start
  | stop (cut : Bool)
  | hold
  | resume
  | clearHalt
  | setSpeed (speed : U16)
  | setRange (range : U8)
  | setLineConstants
  | readLineStatus (constants : Bool)
  | mountRoll (spindle : U8)
  | spliceNow
  deriving DecidableEq, Repr

/-- The commands of the part, in the order of spec/opcode_table.json. A request row carries the block's contents as the
port has read them (log entry 6). -/
inductive Instr where
  | powerOn (e : Env) (levels : Levels)
  | bootstrapWrite (e : Env) (addr : U32)
  | bootstrapEnd (e : Env)
  | scanStrobe (e : Env)
  | attentionWrite (e : Env)
  | interfaceReset (e : Env)
  | slotExamination (e : Env)
  | requestBlockRead (e : Env) (block : U32)
  | definePattern (e : Env) (q : Req)
  | amendPattern (e : Env) (q : Req)
  | pageFetchDone (e : Env) (buffer : BufferId)
  | readPattern (e : Env) (q : Req) (alternate : Bool)
  | retirePattern (e : Env) (q : Req)
  | measurePattern (e : Env) (q : Req) (args : MeasureArgs)
  | setFibreClass (e : Env) (q : Req) (args : ClassArgs)
  | clearFibreClass (e : Env) (q : Req) (cls : U8)
  | readFibreClass (e : Env) (q : Req) (cls : U8)
  | registerRoll (e : Env) (q : Req) (args : RollArgs)
  | amendRoll (e : Env) (q : Req) (args : AmendArgs)
  | readRoll (e : Env) (q : Req)
  | retireRoll (e : Env) (q : Req)
  | placeOrder (e : Env) (q : Req) (args : OrderArgs)
  | readOrder (e : Env) (q : Req)
  | cancelOrder (e : Env) (q : Req) (cut : Bool)
  | alignBlade (e : Env) (q : Req)
  | readPanel (e : Env) (q : Req)
  | awaitPanelExit (e : Env) (q : Req)
  | releasePanel (e : Env) (q : Req)
  | readWebMap (e : Env) (q : Req)
  | purgeWeb (e : Env) (q : Req)
  | setZones (e : Env) (q : Req) (args : ZonesArgs)
  | readZones (e : Env) (q : Req) (cells : Bool)
  | energise (e : Env) (q : Req)
  | deEnergise (e : Env) (q : Req)
  | thread (e : Env) (q : Req)
  | start (e : Env) (q : Req)
  | stop (e : Env) (q : Req) (cut : Bool)
  | hold (e : Env) (q : Req)
  | resume (e : Env) (q : Req)
  | clearHalt (e : Env) (q : Req)
  | setSpeed (e : Env) (q : Req) (speed : U16)
  | setRange (e : Env) (q : Req) (range : U8)
  | setLineConstants (e : Env) (q : Req)
  | readLineStatus (e : Env) (q : Req) (constants : Bool)
  | mountRoll (e : Env) (q : Req) (spindle : U8)
  | spliceNow (e : Env) (q : Req)
  | meteringAdvance (e : Env) (travel : Nat)
  | pleatDone (e : Env) (results : List Crease)
  | unwindAdvance (e : Env) (len : Nat)
  | markSensor (e : Env)
  | spindleReady (e : Env) (spindle : SpindleId) (level : Bool)
  | coreRemoved (e : Env) (spindle : SpindleId) (level : Bool)
  | spliceMade (e : Env) (level : Bool)
  | zoneSample (e : Env) (zone : ZoneId) (sample : Sample)
  | emergencyStopInput (e : Env) (level : Bool)
  | driveFaultInput (e : Env) (level : Bool)
  | feedStall (e : Env)
  | startDeadlineExpiry (e : Env)
  | spliceTimeout (e : Env)
  | purgeBegin (e : Env) (zone : ZoneId)
  | purgeEnd (e : Env) (zone : ZoneId)
  deriving DecidableEq, Repr

end Sys2Proof
end

