-- ==== Sys2Proof/Decode.lean ====
section
/-! DEFINITION. Reading commands: no row of spec/opcode_table.json has bits, so `decodeTableWord` answers none for every word; the
bits a request has are its kind byte, its option flag and its parameter area (11_formats.md), read by `decodeCall` and written
by `encodeCall`. -/

namespace Sys2Proof

/-- The command a word spells by the table's bits: the table gives none of its rows bits. -/
def decodeTableWord (_nbits _w : Nat) : Option Instr := none

/-- The byte at an offset of an area; bytes beyond the area read 0. -/
def byteAt (bs : List Byte) (i : Nat) : Byte := bs.getD i 0

/-- A two-byte field, little-endian (11_formats.md). -/
def u16At (bs : List Byte) (i : Nat) : U16 :=
  BitVec.ofNat 16 ((byteAt bs i).toNat + 256 * (byteAt bs (i + 1)).toNat)

/-- A four-byte field, little-endian (11_formats.md). -/
def u32At (bs : List Byte) (i : Nat) : U32 :=
  BitVec.ofNat 32 ((u16At bs i).toNat + 65536 * (u16At bs (i + 2)).toNat)

/-- A number as `n` bytes, little-endian (11_formats.md). -/
def leBytes : Nat → Nat → List Byte
  | 0, _ => []
  | n + 1, v => BitVec.ofNat 8 v :: leBytes n (v / 256)

/-- The number that little-endian bytes spell. -/
def leNat : List Byte → Nat
  | [] => 0
  | b :: bs => b.toNat + 256 * leNat bs

/-- A signed byte (the grade step, 11_formats.md). -/
def signed8 (b : Byte) : Int := b.toInt

/-- Whether a bit of a field is set. -/
def bitSet (v i : Nat) : Bool := v.testBit i

/-- The kinds that have a data area (R177). -/
def kindHasData (kind : Nat) : Bool :=
  kind == 0x01 || kind == 0x02 || kind == 0x03 || kind == 0x14 || kind == 0x19 || kind == 0x28 || kind == 0x29 ||
    kind == 0x2B || kind == 0x31 || kind == 0x42 || kind == 0x43

/-- Whether a kind byte names a request (R177). -/
def kindNamed (kind : Nat) : Bool :=
  kindHasData kind || kind == 0x04 || kind == 0x08 || kind == 0x10 || kind == 0x11 || kind == 0x12 || kind == 0x13 ||
    kind == 0x15 || kind == 0x18 || kind == 0x1A || kind == 0x20 || kind == 0x2A || kind == 0x2C || kind == 0x30 ||
    (0x38 ≤ kind && kind ≤ 0x41) || kind == 0x48 || kind == 0x49

/-- Parameter area of Set Fibre Class (11_formats.md). -/
def decodeClassArgs (p : List Byte) : ClassArgs :=
  { cls := byteAt p 0x00, theta := u16At p 0x02, tmax := u16At p 0x04, dose := u32At p 0x06, k := u16At p 0x0A }

/-- Parameter area of Register Roll (11_formats.md). -/
def decodeRollArgs (p : List Byte) : RollArgs :=
  { len := u32At p 0x00, cls := byteAt p 0x04, width := u16At p 0x06 }

/-- Parameter area of Amend Roll (11_formats.md). -/
def decodeAmendArgs (p : List Byte) : AmendArgs :=
  let f := (byteAt p 0x00).toNat
  { setLen := bitSet f 0, setCls := bitSet f 1, setWidth := bitSet f 2
    len := u32At p 0x04, cls := byteAt p 0x08, width := u16At p 0x0A }

/-- Parameter area of Place Order (11_formats.md). -/
def decodeOrderArgs (notify : Bool) (p : List Byte) : OrderArgs :=
  { notify := notify, pattern := byteAt p 0x00, size := byteAt p 0x01, cls := byteAt p 0x02, reg := byteAt p 0x03
    n := u16At p 0x04, remakes := byteAt p 0x06, mult := byteAt p 0x07, offset := u16At p 0x08, rep := u16At p 0x0A }

/-- Parameter area of Set Zones (11_formats.md). -/
def decodeZonesArgs (p : List Byte) : ZonesArgs :=
  { flags := u16At p 0x00, edits := byteAt p 0x02, sp1 := u16At p 0x04, sp2 := u16At p 0x06, sp3 := u16At p 0x08
    sp4 := u16At p 0x0A, band := u16At p 0x0C, drop := u16At p 0x0E, stepUp := u16At p 0x10, stepDown := u16At p 0x12
    leapAt := u16At p 0x14, leapDown := u16At p 0x16 }

/-- The request a kind byte, its option and a parameter area spell (R177); none for a kind that names no request. -/
def decodeCall (kind : Nat) (opt : Bool) (p : List Byte) : Option Call :=
  match kind with
  | 0x01 => some .definePattern
  | 0x02 => some .amendPattern
  | 0x03 => some (.readPattern opt)
  | 0x04 => some .retirePattern
  | 0x08 => some (.measurePattern { size := byteAt p 0x00, cls := byteAt p 0x01 })
  | 0x10 => some (if opt then .clearFibreClass (byteAt p 0x00) else .setFibreClass (decodeClassArgs p))
  | 0x11 => some (.readFibreClass (byteAt p 0x00))
  | 0x12 => some (.registerRoll (decodeRollArgs p))
  | 0x13 => some (.amendRoll (decodeAmendArgs p))
  | 0x14 => some .readRoll
  | 0x15 => some .retireRoll
  | 0x18 => some (.placeOrder (decodeOrderArgs opt p))
  | 0x19 => some .readOrder
  | 0x1A => some (.cancelOrder opt)
  | 0x20 => some .alignBlade
  | 0x28 => some .readPanel
  | 0x29 => some .awaitPanelExit
  | 0x2A => some .releasePanel
  | 0x2B => some .readWebMap
  | 0x2C => some .purgeWeb
  | 0x30 => some (.setZones (decodeZonesArgs p))
  | 0x31 => some (.readZones opt)
  | 0x38 => some .energise
  | 0x39 => some .deEnergise
  | 0x3A => some .thread
  | 0x3B => some .start
  | 0x3C => some (.stop opt)
  | 0x3D => some .hold
  | 0x3E => some .resume
  | 0x3F => some .clearHalt
  | 0x40 => some (.setSpeed (u16At p 0x00))
  | 0x41 => some (.setRange (byteAt p 0x00))
  | 0x42 => some .setLineConstants
  | 0x43 => some (.readLineStatus opt)
  | 0x48 => some (.mountRoll (byteAt p 0x00))
  | 0x49 => some .spliceNow
  | _ => none

/-- A parameter area of 32 bytes that begins with the given ones. -/
def paramArea (bs : List Byte) : List Byte := (bs ++ List.replicate 32 0).take 32

/-- A flag as a number. -/
def flagNat (b : Bool) : Nat := if b then 1 else 0

/-- The kind byte, option flag and parameter area that spell a request, reserved bytes 0 (R177, 11_formats.md). -/
def encodeCall : Call → Nat × Bool × List Byte
  | .definePattern => (0x01, false, paramArea [])
  | .amendPattern => (0x02, false, paramArea [])
  | .readPattern alt => (0x03, alt, paramArea [])
  | .retirePattern => (0x04, false, paramArea [])
  | .measurePattern a => (0x08, false, paramArea [a.size, a.cls])
  | .setFibreClass a =>
    (0x10, false, paramArea ([a.cls, 0] ++ leBytes 2 a.theta.toNat ++ leBytes 2 a.tmax.toNat ++ leBytes 4 a.dose.toNat ++
      leBytes 2 a.k.toNat))
  | .clearFibreClass c => (0x10, true, paramArea [c])
  | .readFibreClass c => (0x11, false, paramArea [c])
  | .registerRoll a => (0x12, false, paramArea (leBytes 4 a.len.toNat ++ [a.cls, 0] ++ leBytes 2 a.width.toNat))
  | .amendRoll a =>
    (0x13, false, paramArea ([BitVec.ofNat 8 (flagNat a.setLen + 2 * flagNat a.setCls + 4 * flagNat a.setWidth), 0, 0, 0] ++
      leBytes 4 a.len.toNat ++ [a.cls, 0] ++ leBytes 2 a.width.toNat))
  | .readRoll => (0x14, false, paramArea [])
  | .retireRoll => (0x15, false, paramArea [])
  | .placeOrder a =>
    (0x18, a.notify, paramArea ([a.pattern, a.size, a.cls, a.reg] ++ leBytes 2 a.n.toNat ++ [a.remakes, a.mult] ++
      leBytes 2 a.offset.toNat ++ leBytes 2 a.rep.toNat))
  | .readOrder => (0x19, false, paramArea [])
  | .cancelOrder cut => (0x1A, cut, paramArea [])
  | .alignBlade => (0x20, false, paramArea [])
  | .readPanel => (0x28, false, paramArea [])
  | .awaitPanelExit => (0x29, false, paramArea [])
  | .releasePanel => (0x2A, false, paramArea [])
  | .readWebMap => (0x2B, false, paramArea [])
  | .purgeWeb => (0x2C, false, paramArea [])
  | .setZones a =>
    (0x30, false, paramArea (leBytes 2 a.flags.toNat ++ [a.edits, 0] ++ leBytes 2 a.sp1.toNat ++ leBytes 2 a.sp2.toNat ++
      leBytes 2 a.sp3.toNat ++ leBytes 2 a.sp4.toNat ++ leBytes 2 a.band.toNat ++ leBytes 2 a.drop.toNat ++
      leBytes 2 a.stepUp.toNat ++ leBytes 2 a.stepDown.toNat ++ leBytes 2 a.leapAt.toNat ++ leBytes 2 a.leapDown.toNat))
  | .readZones cells => (0x31, cells, paramArea [])
  | .energise => (0x38, false, paramArea [])
  | .deEnergise => (0x39, false, paramArea [])
  | .thread => (0x3A, false, paramArea [])
  | .start => (0x3B, false, paramArea [])
  | .stop cut => (0x3C, cut, paramArea [])
  | .hold => (0x3D, false, paramArea [])
  | .resume => (0x3E, false, paramArea [])
  | .clearHalt => (0x3F, false, paramArea [])
  | .setSpeed v => (0x40, false, paramArea (leBytes 2 v.toNat))
  | .setRange r => (0x41, false, paramArea [r])
  | .setLineConstants => (0x42, false, paramArea [])
  | .readLineStatus c => (0x43, c, paramArea [])
  | .mountRoll sp => (0x48, false, paramArea [sp])
  | .spliceNow => (0x49, false, paramArea [])

end Sys2Proof
end

