-- ==== Sys2Proof/Machine/State.lean ====
section
/-! DEFINITION. The state of the part as plain data: one record for each of the eight blocks, shared memory as the part sees
it, and the queue of commands; the reasons a step can stop; and the state after reset. -/

namespace Sys2Proof.Machine

/-! ### Pattern Library (R1 to R7) -/

/-- The two pages of a slot (R1). -/
inductive Letter where
  | a | b
  deriving DecidableEq, Repr

/-- The five kinds of a group (R3). -/
inductive FoldKind where
  | flat | knifeLeft | knifeRight | box | invertedBox
  deriving DecidableEq, Repr

/-- A group of a page (R3). -/
structure Group where
  kind : FoldKind
  count : Nat
  face : Nat
  depth : Nat
  step : Int
  deriving DecidableEq, Repr

/-- A page of a pattern (R3). -/
structure Page where
  name : List Byte
  base : Nat
  waist : Nat
  hem : Nat
  motif : Nat
  groups : List Group
  deriving DecidableEq, Repr

/-- Whether a slot holds a pattern (R1). -/
inductive SlotState where
  | free | active | retiring
  deriving DecidableEq, Repr

/-- A slot record of the library (R1). `watch` is the entry of the held Retire Pattern. -/
structure Slot where
  state : SlotState
  pageA : Option Page
  pageB : Option Page
  live : Option Letter
  flip : Bool
  uses : Nat
  prot : Bool
  busy : Bool
  watch : Option Nat
  deriving DecidableEq, Repr

/-- A page fetch in an assembly buffer: the entry it serves, the slot it names, and whether it is an Amend (R7). -/
structure Fetch where
  entry : Nat
  slot : Nat
  amend : Bool
  deriving DecidableEq, Repr

/-- The Pattern Library: 48 slots and two assembly buffers (R1, R7). -/
structure Library where
  slots : List Slot
  bufA : Option Fetch
  bufB : Option Fetch
  deriving DecidableEq, Repr

/-! ### Order Queue (R49, R50) -/

/-- The two classes of order (R49). -/
inductive OrderClass where
  | rush | normal
  deriving DecidableEq, Repr

/-- Where an order stands (R49). -/
inductive OrderState where
  | queued | forming | awaitingExit
  deriving DecidableEq, Repr

/-- The registration fields of a MARKED order (R49). -/
structure Marks where
  mult : Nat
  offset : Nat
  rep : Nat
  deriving DecidableEq, Repr

/-- An order record (R49); `marks` is absent for a FREE order. -/
structure Order where
  tag : Nat
  pattern : Nat
  size : Nat
  cls : OrderClass
  n : Nat
  m : Nat
  formed : Nat
  good : Nat
  reject : Nat
  remakeLimit : Nat
  remakes : Nat
  marks : Option Marks
  page : Option Letter
  live : Nat
  cancel : Bool
  watch : Option Nat
  state : OrderState
  deriving DecidableEq, Repr

/-! ### Pleating Head (R63, R29) -/

/-- What the blade is doing (R63). -/
inductive HeadState where
  | retracted | flat | forming | aligning
  deriving DecidableEq, Repr

/-- The section of the pleat cursor (R23, R65). -/
inductive Section where
  | none | waist | motif | hem | atEnd
  deriving DecidableEq, Repr

/-- The pleat cursor: the unit to be drawn next (R65). -/
structure Cursor where
  part : Section
  pass : Nat
  group : Nat
  pleat : Nat
  deriving DecidableEq, Repr

/-- The purposes of a flat run (R68). -/
inductive Purpose where
  | gap | wait | seek | drain | guard | splice | thread | trial
  deriving DecidableEq, Repr

/-- A flat run (R68): its purpose, the remaining length of a finite run, whether its segment has been opened, and the roll a
SPLICE run names (R75). -/
structure Run where
  purpose : Purpose
  remaining : Option Nat
  opened : Bool
  roll : Option Nat
  deriving DecidableEq, Repr

/-- A stroke command: length, direction and position in metered travel from the start of the draw (R31). -/
structure Stroke where
  len : Nat
  right : Bool
  pos : Nat
  deriving DecidableEq, Repr

/-- A unit: a fold unit of the panel or a chunk of a flat run, with its draw, its output and its strokes (R66). `trial` is
the phase step of a trial whose result counts (R85). -/
structure DrawUnit where
  fold : Bool
  draw : Nat
  output : Nat
  strokes : List Stroke
  trial : Option Nat
  deriving DecidableEq, Repr

/-- The unit in flight: the travel counted, draw-end taken, and the pleat-done's results once taken (R66). -/
structure Flight where
  unit : DrawUnit
  travel : Nat
  drawEnd : Bool
  results : Option (List Crease)
  deriving DecidableEq, Repr

/-- The bound order as the Order Queue handed it over (R54, R63). -/
structure Bound where
  tag : Nat
  pattern : Nat
  size : Nat
  letter : Letter
  marks : Option Marks
  deriving DecidableEq, Repr

/-- The metering accumulators of the FORMING panel (R29). -/
structure Meter where
  letter : Letter
  size : Nat
  k : Nat
  faces : List Nat
  j : Nat
  n : Nat
  w : Nat
  m : Nat
  q : Nat
  takeup : Nat
  out : Nat
  deriving DecidableEq, Repr

/-- The stage of a splice passage (R75). -/
inductive Passage where
  | none | guard | splice
  deriving DecidableEq, Repr

/-- A pending splice arrival: its position in F and the incoming roll's tag (R73). -/
structure Arrival where
  pos : Nat
  roll : Nat
  deriving DecidableEq, Repr

/-- An Align Blade in progress: its held request (absent after an interface reset), the phase step of the next trial, the
trials made and the last result (R85, R86). -/
structure Align where
  entry : Option Nat
  step : Nat
  made : Nat
  last : Option Crease
  deriving DecidableEq, Repr

/-- What is still to come of units that a cut finished at once (R81, R82): the travel their draws lacked, and the pleat-done reports
owed for their strokes. The reports that bring these are discarded (log entry 46). -/
structure Late where
  travel : Nat
  pleats : Nat
  deriving DecidableEq, Repr

/-- The head record (R63), with the metering accumulators (R29), the outstanding stroke commands (R66) and the crease window
output (R67). Registration is COUNTING while `counting` is set and SEEKING otherwise (R77, R78). -/
structure Head where
  state : HeadState
  f : Nat
  o : Nat
  bound : Option Bound
  panel : Option Nat
  cursor : Cursor
  flight : Option Flight
  wanted : Option DrawUnit
  run : Option Run
  suspended : Option Run
  committed : Nat
  arrival : Option Arrival
  passage : Passage
  wish : Bool
  marks : List Nat
  counting : Bool
  lastMark : Option Int
  counted : Nat
  expected : Option Nat
  absent : Nat
  aligned : Bool
  offset : Nat
  gapOwed : Bool
  drainSpent : Bool
  meter : Option Meter
  align : Option Align
  mapNeed : Nat
  again : Bool
  blade : List Stroke
  window : Nat
  late : Late
  deriving DecidableEq, Repr

/-! ### Web Map (R88, R92) -/

/-- What a segment of web is (R88). -/
inductive SegKind where
  | panel | flat | splice | trial
  deriving DecidableEq, Repr

/-- A segment record (R88); open while its ends are absent. -/
structure Segment where
  number : Nat
  kind : SegKind
  roll : Nat
  panel : Option Nat
  fStart : Nat
  fEnd : Option Nat
  oStart : Nat
  oEnd : Option Nat
  deriving DecidableEq, Repr

/-- Where a panel stands (R92). -/
inductive PanelState where
  | forming | inPath | exited
  deriving DecidableEq, Repr

/-- The judgement of a panel (R97). -/
inductive Verdict where
  | good | reject
  deriving DecidableEq, Repr

/-- The causes of a REJECT (R92). -/
structure Reasons where
  underset : Bool
  scorched : Bool
  missedFolds : Bool
  cut : Bool
  unregistered : Bool
  purged : Bool
  deriving DecidableEq, Repr

/-- A panel record (R92). -/
structure Panel where
  id : Nat
  state : PanelState
  order : Nat
  pattern : Nat
  page : Letter
  size : Nat
  roll : Nat
  segment : Option Nat
  k : Nat
  takeup : Nat
  out : Nat
  strokes : Nat
  formed : Nat
  missed : Nat
  minDose : Option Nat
  peak : Nat
  started : Clock
  exitTime : Option Clock
  unregistered : Bool
  cut : Bool
  purged : Bool
  verdict : Option Verdict
  reasons : Reasons
  deriving DecidableEq, Repr

/-- The Web Map (R88, R92): segments oldest first, panels in creation order, the exit order and the waiting Awaits (R99). -/
structure Web where
  segs : List Segment
  nextSeg : Nat
  panels : List Panel
  nextPanel : Nat
  exits : List Nat
  awaits : List Nat
  deriving DecidableEq, Repr

/-! ### Steam Chest (R107, R116) -/

/-- A zone record (R107): `duty` is the valve output, `purging` the drain output, `timer` the clock value the purge timer
started from, absent while it stands. -/
structure Zone where
  enabled : Bool
  setPoint : Nat
  target : Option Nat
  reading : Nat
  lastGood : Nat
  faultRun : Nat
  faulted : Bool
  duty : Nat
  ready : Bool
  timer : Option Clock
  purging : Bool
  deriving DecidableEq, Repr

/-- The shared regulation parameters (R107). -/
structure ZoneParams where
  band : Nat
  drop : Nat
  stepUp : Nat
  stepDown : Nat
  leapAt : Nat
  leapDown : Nat
  deriving DecidableEq, Repr

/-- What a filled heat cell holds (R116). -/
structure CellFill where
  first : Nat
  second : Nat
  cls : Nat
  dose : Nat
  peak : Nat
  deriving DecidableEq, Repr

/-- A heat cell (R116): EMPTY while `fill` is absent. -/
structure Cell where
  lower : Option Nat
  fill : Option CellFill
  deriving DecidableEq, Repr

/-- The Steam Chest: zones 1 to 4, the shared parameters, cells 0 to 63 and the entry position E (R107, R116, R117). -/
structure Chest where
  zones : List Zone
  par : ZoneParams
  cells : List Cell
  entry : Nat
  deriving DecidableEq, Repr

/-! ### Line Control (R126) -/

/-- The line states (R126). -/
inductive LineState where
  | off | standby | thread | starting | run | hold | stopping | halt
  deriving DecidableEq, Repr

/-- The hold reasons (R126). -/
inductive HoldReason where
  | operator | heat | noOrder | panelsFull | mapFull
  deriving DecidableEq, Repr

/-- The hold-reason set (R126). -/
structure Holds where
  operator : Bool
  heat : Bool
  noOrder : Bool
  panelsFull : Bool
  mapFull : Bool
  deriving DecidableEq, Repr

/-- The halt causes (R135). -/
inductive HaltCause where
  | estop | driveFault | tailOut | spliceFault | missedFolds | sensor | overtemp | overfill | feedStall
  deriving DecidableEq, Repr

/-- The halt set (R126, R135). -/
structure Halts where
  estop : Bool
  driveFault : Bool
  tailOut : Bool
  spliceFault : Bool
  missedFolds : Bool
  sensor : Bool
  overtemp : Bool
  overfill : Bool
  feedStall : Bool
  deriving DecidableEq, Repr

/-- The speed ranges (R137). -/
inductive SpeedRange where
  | low | high
  deriving DecidableEq, Repr

/-- The line record (R126). `stall` is the clock value the feed-stall deadline counts from (R142), `deadline` the STARTING
time spent while the start deadline is armed (R129). -/
structure Line where
  state : LineState
  holds : Holds
  cause : Option HaltCause
  halts : Halts
  range : SpeedRange
  commanded : Nat
  limit : Nat
  ceiling : Nat
  limiting : Option Nat
  zonesReady : Bool
  effective : Nat
  speedRef : Nat
  store : Nat
  latchShut : Bool
  unwind : Bool
  starved : Bool
  stall : Option Clock
  deadline : Option Nat
  stopWatches : List Nat
  startWatch : Option Nat
  consts : Option Consts
  clock : Clock
  estop : Bool
  drive : Bool
  deriving DecidableEq, Repr

/-! ### Roll Turret (R34, R39, R146, R150) -/

/-- A VALID entry of the fibre class table (R34). -/
structure FibreClass where
  theta : Nat
  tmax : Nat
  dose : Nat
  k : Nat
  deriving DecidableEq, Repr

/-- Where a roll stands in its life (R39). -/
inductive RollState where
  | staged | mounted | prepared | running | spent
  deriving DecidableEq, Repr

/-- A roll record (R39); its remaining length is `declared - u`. -/
structure Roll where
  tag : Nat
  declared : Nat
  cls : Nat
  width : Nat
  state : RollState
  spindle : Option SpindleId
  u : Nat
  refs : Nat
  watch : Option Nat
  deriving DecidableEq, Repr

/-- The states of a spindle (R146). -/
inductive SpindleState where
  | empty | loaded | ready | feeding | core
  deriving DecidableEq, Repr

/-- A spindle record (R146), with the last levels seen on its two inputs. -/
structure Spindle where
  state : SpindleState
  tag : Option Nat
  readyIn : Bool
  coreIn : Bool
  deriving DecidableEq, Repr

/-- The states of the splice sequence (R150). -/
inductive SpliceState where
  | idle | pending | pressing
  deriving DecidableEq, Repr

/-- A roll of a press with its spindle (R150). -/
structure PressRoll where
  tag : Nat
  spindle : SpindleId
  deriving DecidableEq, Repr

/-- A deadline: the clock value at which it was set and its length in milliseconds (R144). -/
structure Deadline where
  setAt : Clock
  len : Nat
  deriving DecidableEq, Repr

/-- The Roll Turret: spindles, roll table in registration order, fibre classes 1 to 8, the splice sequence (R150), the press
command output and the last level of the splice-made input (R154). -/
structure Turret where
  spinA : Spindle
  spinB : Spindle
  rolls : List Roll
  classes : List (Option FibreClass)
  seq : SpliceState
  point : Bool
  headWish : Bool
  request : Bool
  outgoing : Option PressRoll
  incoming : Option PressRoll
  press : Option Deadline
  tail : Bool
  now : Option Nat
  pressOut : Bool
  splice : Bool
  deriving DecidableEq, Repr

/-! ### Request Port (R162, R168, R171) -/

/-- The interface states (R162). -/
inductive PortState where
  | uninitialised | initialising | ready | initFailed
  deriving DecidableEq, Repr

/-- The fault codes of the interface (R162). -/
inductive PortFault where
  | none | badBlock | badRing | busFault | ringFault
  deriving DecidableEq, Repr

/-- The constants outcomes (R162, R164); REFUSED carries the failing row of the table of R143, 1..16. -/
inductive ConstsOutcome where
  | none | absent | applied | kept
  | refused (row : Nat)
  deriving DecidableEq, Repr

/-- The scan states (R165). -/
inductive Scan where
  | idle | active | suspended
  deriving DecidableEq, Repr

/-- A ring descriptor: address, slot count, and the scan position (the slot last taken) or the post position (R162). -/
structure Ring where
  addr : Nat
  count : Nat
  pos : Nat
  deriving DecidableEq, Repr

/-- What a WAITING request waits for (R169). -/
inductive Await where
  | slot (number : Nat)
  | buffers
  | roll (tag : Nat)
  deriving DecidableEq, Repr

/-- The stages of a held entry (R168). -/
inductive Stage where
  | taken
  | waiting (on : Await)
  | running
  | posting
  deriving DecidableEq, Repr

/-- An entry of the held-request table (R168): its place in arrival order, the block address (the target's for an abort),
its stage, and, once its block has been read, what it asks. -/
structure Entry where
  no : Nat
  block : Nat
  abort : Bool
  stage : Stage
  req : Option (Req × Call)
  deriving DecidableEq, Repr

/-- A completion or an abort result to be posted (R171, R173). `last` marks the post that frees its entry. -/
structure PostItem where
  no : Nat
  result : Bool
  code : Nat
  block : Nat
  last : Bool
  deriving DecidableEq, Repr

/-- The Request Port: the interface record (R162), the held-request table (R168) and the posts waiting (R171).
`ringFault` tells the return ring (set) from the outbound ring, and the slot index (R172). -/
structure Port where
  state : PortState
  fault : PortFault
  ringFault : Option (Bool × Nat)
  outcome : ConstsOutcome
  initBlock : Option Nat
  out : Option Ring
  ret : Option Ring
  scan : Scan
  rescan : Bool
  examined : Nat
  table : List Entry
  posting : List PostItem
  nextNo : Nat
  attention : Bool
  deriving DecidableEq, Repr

/-! ### The whole machine -/

/-- Shared memory as the part sees it: bytes at rising addresses, none of them 0 (log entry 3). -/
abbrev Memory := List Host.Cell

/-- The spans at which the bus faults during the present command (R172, log entry 1). -/
structure Bus where
  reads : List Span
  writes : List Span
  deriving DecidableEq, Repr

/-- Everything the spec gives the part, shared memory as the part sees it, and the commands waiting, first in, first out. -/
structure State where
  mem : Memory
  bus : Bus
  port : Port
  lib : Library
  orders : List Order
  head : Head
  web : Web
  chest : Chest
  line : Line
  turret : Turret
  pending : List Instr
  deriving DecidableEq, Repr

/-- The reasons the part stops with a fault. There is none: a bus fault ends a request or the interface (R172) and a halt
cause halts the line (R135), and after both the part goes on. -/
inductive Fault where
  deriving DecidableEq, Repr

/-- The reasons a command has no meaning. -/
inductive Refusal where
  /-- Raised by `exec` for a row of the table that has no meaning yet; safe. No row is refused so. -/
  | notModelled (mnemonic : String)
  deriving DecidableEq, Repr

/-! ### Power-on -/

/-- The trial pattern of slot 0 (R5). -/
def trialPage : Page :=
  { name := [0x54, 0x52, 0x49, 0x41, 0x4C, 0x20, 0x20, 0x20]
    base := 0, waist := 500, hem := 500, motif := 1
    groups := [{ kind := .knifeRight, count := 20, face := 100, depth := 50, step := 0 }] }

/-- A FREE slot (R1, R5). -/
def freeSlot : Slot :=
  { state := .free, pageA := none, pageB := none, live := none, flip := false, uses := 0, prot := false, busy := false, watch := none }

/-- Slot 0 at power-on (R5). -/
def trialSlot : Slot :=
  { freeSlot with state := .active, pageA := some trialPage, pageB := some trialPage, live := some .a, prot := true }

/-- R5. -/
def Library.initial : Library :=
  { slots := trialSlot :: List.replicate 47 freeSlot, bufA := none, bufB := none }

/-- The cleared pleat cursor (R65). -/
def Cursor.clear : Cursor := ⟨.none, 0, 0, 0⟩

/-- R87, with the crease window at its widest (R67). -/
def Head.initial : Head :=
  { state := .retracted, f := 0, o := 0, bound := none, panel := none, cursor := Cursor.clear, flight := none, wanted := none
    run := none, suspended := none, committed := 0, arrival := none, passage := .none, wish := false, marks := []
    counting := false, lastMark := none, counted := 0, expected := none, absent := 0, aligned := false, offset := 0
    gapOwed := false, drainSpent := false, meter := none, align := none, mapNeed := 0, again := false, blade := [], window := 3
    late := ⟨0, 0⟩ }

/-- R88, R92. -/
def Web.initial : Web :=
  { segs := [], nextSeg := 0, panels := [], nextPanel := 1, exits := [], awaits := [] }

/-- A zone at power-on (R107). -/
def Zone.initial : Zone :=
  { enabled := true, setPoint := 1000, target := none, reading := 0, lastGood := 0, faultRun := 0, faulted := false, duty := 0
    ready := false, timer := none, purging := false }

/-- R107, R116, R117. -/
def Chest.initial : Chest :=
  { zones := List.replicate 4 Zone.initial
    par := { band := 20, drop := 200, stepUp := 10, stepDown := 10, leapAt := 100, leapDown := 50 }
    cells := List.replicate 64 ⟨none, none⟩, entry := 0 }

/-- The empty hold-reason set. -/
def Holds.empty : Holds := ⟨false, false, false, false, false⟩

/-- The empty halt set. -/
def Halts.empty : Halts := ⟨false, false, false, false, false, false, false, false, false⟩

/-- R126. -/
def Line.initial (l : Levels) : Line :=
  { state := .off, holds := Holds.empty, cause := none, halts := Halts.empty, range := .low, commanded := 5, limit := 40
    ceiling := 240, limiting := none, zonesReady := false, effective := 5, speedRef := 0, store := 0, latchShut := false
    unwind := false, starved := false, stall := none, deadline := none, stopWatches := [], startWatch := none, consts := none
    clock := 0, estop := l.estop, drive := l.drive }

/-- R34, R39, R146, R150, R154. -/
def Turret.initial (l : Levels) : Turret :=
  { spinA := ⟨.empty, none, l.readyA, l.coreA⟩, spinB := ⟨.empty, none, l.readyB, l.coreB⟩, rolls := []
    classes := List.replicate 8 none, seq := .idle, point := false, headWish := false, request := false, outgoing := none
    incoming := none, press := none, tail := false, now := none, pressOut := false, splice := l.splice }

/-- R162. -/
def Port.initial : Port :=
  { state := .uninitialised, fault := .none, ringFault := none, outcome := .none, initBlock := none, out := none, ret := none
    scan := .idle, rescan := false, examined := 0, table := [], posting := [], nextNo := 0, attention := false }

/-- Every block at its power-on values, the input levels taken as they stand (R126, R135, R146, R154). Shared memory, the bus
and the queue are not the part's and stay. -/
def State.poweredOn (l : Levels) (mem : Memory) (bus : Bus) (pending : List Instr) : State :=
  { mem := mem, bus := bus, port := Port.initial, lib := Library.initial, orders := [], head := Head.initial
    web := Web.initial, chest := Chest.initial, line := Line.initial l, turret := Turret.initial l, pending := pending }

/-- The part right after power-on, every input inactive and nothing in shared memory (log entries 3, 5). -/
def State.reset : State :=
  State.poweredOn ⟨false, false, false, false, false, false, false⟩ [] ⟨[], []⟩ []

end Sys2Proof.Machine
end

