-- ==== Sys2Proof/Machine/Ops.lean ====
section
/-! DEFINITION. The named operations every meaning is built from: shared memory, the clock, and reading and updating one record
of a table. -/

namespace Sys2Proof.Machine

/-! ### Shared memory (log entries 3, 4) -/

/-- What an address that is not listed reads as: DESIGN CHOICE (log entry 3, unsafe). -/
def Memory.unlisted : Byte := 0

/-- The byte at an address. -/
def Memory.read : Memory → Nat → Byte
  | [], _ => Memory.unlisted
  | (b, v) :: m, a => if a = b then v else if a < b then Memory.unlisted else Memory.read m a

/-- Memory with a byte listed, or with none listed when it is what an unlisted address reads as. -/
def Memory.cons (a : Nat) (v : Byte) (m : Memory) : Memory := if v = Memory.unlisted then m else (a, v) :: m

/-- Memory after a byte is written; the canonical form is kept. -/
def Memory.write : Memory → Nat → Byte → Memory
  | [], a, v => Memory.cons a v []
  | (b, w) :: m, a, v =>
    if a = b then Memory.cons a v m
    else if a < b then Memory.cons a v ((b, w) :: m)
    else (b, w) :: Memory.write m a v

/-- The canonical form: addresses strictly rising, and no entry equal to what an unlisted address reads as. -/
def Memory.wf : Memory → Bool
  | [] => true
  | [(_, v)] => v != Memory.unlisted
  | (a, v) :: (b, w) :: m => v != Memory.unlisted && decide (a < b) && Memory.wf ((b, w) :: m)

/-- Whether an access to an address faults: it lies in a faulting span, or beyond the 32-bit addresses (log entry 3). -/
def faultsAt (bad : List Span) (a : Nat) : Bool :=
  decide (2 ^ 32 ≤ a) || bad.any (fun p => decide (p.base.toNat ≤ a) && decide (a < p.base.toNat + p.len))

/-- Bytes at consecutive addresses. -/
def spread : Nat → List Byte → List (Nat × Byte)
  | _, [] => []
  | a, b :: bs => (a, b) :: spread (a + 1) bs

/-- Memory after bytes are written one by one, up to the first that faults; whether none faulted (log entry 4). -/
def Memory.store (bad : List Span) : List (Nat × Byte) → Memory → Memory × Bool
  | [], m => (m, true)
  | (a, b) :: ps, m => if faultsAt bad a then (m, false) else Memory.store bad ps (m.write a b)

/-- Write bytes to shared memory. -/
def State.store (s : State) (ps : List (Nat × Byte)) : State :=
  { s with mem := (s.mem.store s.bus.writes ps).1 }

/-- Whether writing these bytes would fault nowhere. -/
def State.storeOk (s : State) (ps : List (Nat × Byte)) : Bool := (s.mem.store s.bus.writes ps).2

/-- Read the bytes at these addresses; none when one of them faults. -/
def State.load (s : State) : List Nat → Option (List Byte)
  | [] => some []
  | a :: as => if faultsAt s.bus.reads a then none else (s.load as).map (fun bs => s.mem.read a :: bs)

/-- Consecutive addresses. -/
def addrs (a n : Nat) : List Nat := (List.range n).map (fun i => a + i)

/-! ### The clock (R144) and what came about outside -/

/-- Milliseconds from a clock value to another, modulo 2^32 (R144). -/
def elapsed (now since : Clock) : Nat := (now - since).toNat

/-- R144: a deadline is reached when the clock has advanced by at least its length. -/
def Deadline.reached (d : Deadline) (now : Clock) : Bool := d.len ≤ elapsed now d.setAt

/-- R144: the clock value a deadline names. -/
def Deadline.value (d : Deadline) : Clock := d.setAt + BitVec.ofNat 32 d.len

/-- Milliseconds pass: the line clock counts (R144), and the STARTING time spent while the start deadline is armed (R129). -/
def tick (n : Nat) (s : State) : State :=
  { s with
    line.clock := s.line.clock + BitVec.ofNat 32 n
    line.deadline := if s.line.state = .starting then s.line.deadline.map (· + n % 2 ^ 32) else s.line.deadline }

/-- What came about outside before a command (log entry 1). -/
def arrive (e : Env) (s : State) : State :=
  tick e.elapsed
    { s with
      mem := e.writes.foldl (fun m w => m.write w.1.toNat w.2) s.mem
      bus := ⟨e.readFaults, e.writeFaults⟩ }

/-! ### Records -/

/-- The line constants in force; free values while they are unset (log entry 11). -/
def State.k (s : State) : Consts := s.line.consts.getD Config.unsetConsts

/-- A slot of the library (R1). -/
def State.slot (s : State) (n : Nat) : Slot := s.lib.slots.getD n freeSlot

/-- Change one slot of the library. -/
def State.mapSlot (s : State) (n : Nat) (f : Slot → Slot) : State := { s with lib.slots := s.lib.slots.modify n f }

/-- A page of a slot by its letter (R2). -/
def Slot.page (x : Slot) : Letter → Option Page
  | .a => x.pageA
  | .b => x.pageB

/-- The other page letter. -/
def Letter.other : Letter → Letter
  | .a => .b
  | .b => .a

/-- R2: the next page is the alternate page while a flip is pending and the live page otherwise. -/
def Slot.nextLetter (x : Slot) : Letter :=
  let live := x.live.getD .a
  if x.flip then live.other else live

/-- R2: the page the next binding takes. -/
def Slot.nextPage (x : Slot) : Option Page := x.page x.nextLetter

/-- R2: a flip exchanges the roles of the pages and clears the mark. -/
def Slot.flipped (x : Slot) : Slot := { x with live := x.live.map Letter.other, flip := false }

/-- An order by its tag (R49). -/
def State.findOrder (s : State) (tag : Nat) : Option Order := s.orders.find? (fun o => o.tag == tag)

/-- Change the order of a tag. -/
def State.mapOrder (s : State) (tag : Nat) (f : Order → Order) : State :=
  { s with orders := s.orders.map (fun o => if o.tag == tag then f o else o) }

/-- A roll by its tag (R39). -/
def State.findRoll (s : State) (tag : Nat) : Option Roll := s.turret.rolls.find? (fun r => r.tag == tag)

/-- Change the roll of a tag. -/
def State.mapRoll (s : State) (tag : Nat) (f : Roll → Roll) : State :=
  { s with turret.rolls := s.turret.rolls.map (fun r => if r.tag == tag then f r else r) }

/-- R39, R41: the remaining length of a roll. -/
def Roll.remaining (r : Roll) : Nat := r.declared - r.u

/-- R40: the RUNNING roll. -/
def State.runningRoll (s : State) : Option Roll := s.turret.rolls.find? (fun r => r.state == .running)

/-- The entry of a class number 1..8; none when EMPTY or when there is no such number (R34). -/
def State.fibre (s : State) (n : Nat) : Option FibreClass :=
  if n = 0 then none else (s.turret.classes.getD (n - 1) none)

/-- The shrink allowance of a class as a reader finds it (R34, R37); an EMPTY entry reads as 0 (R34). -/
def State.allowance (s : State) (cls : Nat) : Nat := ((s.fibre cls).map FibreClass.k).getD 0

/-- R27: the k of the class of the running roll, 0 when no roll is RUNNING. -/
def State.runningK (s : State) : Nat :=
  match s.runningRoll with
  | some r => s.allowance r.cls
  | none => 0

/-- A spindle record (R146). -/
def State.spindle (s : State) : SpindleId → Spindle
  | .a => s.turret.spinA
  | .b => s.turret.spinB

/-- Change one spindle record. -/
def State.mapSpindle (s : State) (i : SpindleId) (f : Spindle → Spindle) : State :=
  match i with
  | .a => { s with turret.spinA := f s.turret.spinA }
  | .b => { s with turret.spinB := f s.turret.spinB }

/-- The spindle that is not the given one. -/
def oppositeSpindle : SpindleId → SpindleId
  | .a => .b
  | .b => .a

/-- The FEEDING spindle (R146). -/
def State.feeding (s : State) : Option SpindleId :=
  if s.turret.spinA.state = .feeding then some .a
  else if s.turret.spinB.state = .feeding then some .b
  else none

/-- R146: the spindle that is not FEEDING, while a roll runs. -/
def State.otherSpindle (s : State) : Option SpindleId := s.feeding.map oppositeSpindle

/-- A panel by its id (R92). -/
def State.findPanel (s : State) (id : Nat) : Option Panel := s.web.panels.find? (fun p => p.id == id)

/-- Change the panel of an id. -/
def State.mapPanel (s : State) (id : Nat) (f : Panel → Panel) : State :=
  { s with web.panels := s.web.panels.map (fun p => if p.id == id then f p else p) }

/-- The newest segment (R88). -/
def State.newestSeg (s : State) : Option Segment := s.web.segs.getLast?

/-- R68: the roll of the newest segment, or the RUNNING roll when the map is empty. -/
def State.bladeRoll (s : State) : Option Nat :=
  match s.newestSeg with
  | some g => some g.roll
  | none => s.runningRoll.map Roll.tag

/-- The place of a zone in the list of zones. -/
def zoneIndex : ZoneId → Nat
  | .z1 => 0
  | .z2 => 1
  | .z3 => 2
  | .z4 => 3

/-- A zone record (R107). -/
def State.zone (s : State) (z : ZoneId) : Zone := s.chest.zones.getD (zoneIndex z) Zone.initial

/-- Change one zone record. -/
def State.mapZone (s : State) (z : ZoneId) (f : Zone → Zone) : State :=
  { s with chest.zones := s.chest.zones.modify (zoneIndex z) f }

end Sys2Proof.Machine
end

