-- ==== Sys2Proof/Machine/Arith.lean ====
section
/-! DEFINITION. Pleat arithmetic (R19 to R31): grading, the grade check and the size span, fold units, running totals, takeup and
output length with their limits, the pleat cursor, and strokes. -/

namespace Sys2Proof.Machine

/-! ### Grading (R19, R20, R21) -/

/-- R19: the graded face of a group at a size, for a page of base size `base`. -/
def Group.graded (g : Group) (base size : Nat) : Int := (g.face : Int) + ((size : Int) - (base : Int)) * g.step

/-- R22, R24: depths of underlay that one pleat hides. -/
def FoldKind.underlays : FoldKind → Nat
  | .flat => 0
  | .knifeLeft => 2
  | .knifeRight => 2
  | .box => 4
  | .invertedBox => 4

/-- R22: strokes of one pleat, true for a right stroke. -/
def FoldKind.strokes : FoldKind → List Bool
  | .flat => []
  | .knifeLeft => [false]
  | .knifeRight => [true]
  | .box => [true, false]
  | .invertedBox => [false, true]

/-- The code of a kind in a page (11_formats.md). -/
def FoldKind.code : FoldKind → Nat
  | .flat => 0
  | .knifeLeft => 1
  | .knifeRight => 2
  | .box => 3
  | .invertedBox => 4

/-- R20: the least graded face of a group. -/
def Group.leastFace (g : Group) : Int :=
  match g.kind with
  | .flat => 20
  | .knifeLeft => max 20 (g.depth : Int)
  | .knifeRight => max 20 (g.depth : Int)
  | .box => 2 * (g.depth : Int)
  | .invertedBox => 2 * (g.depth : Int)

/-- R20: the bound a graded face breaks, none when the face is valid. -/
def Group.brokenBound (g : Group) (f : Int) : Option Int :=
  if f < g.leastFace then some g.leastFace else if 2000 < f then some 2000 else none

/-- What a failed grade check names (R20): the group's index from 1, the group, its graded face and the bound it broke. -/
structure GradeFail where
  index : Nat
  group : Group
  face : Int
  bound : Int
  deriving DecidableEq, Repr

/-- The grade check of a group list whose first group has the given index (R20). -/
def gradeGroups (base size : Nat) : Nat → List Group → Option GradeFail
  | _, [] => none
  | i, g :: gs =>
    match g.brokenBound (g.graded base size) with
    | some b => some ⟨i, g, g.graded base size, b⟩
    | none => gradeGroups base size (i + 1) gs

/-- R20: the grade check of a page at a size; none when the page passes. -/
def Page.gradeCheck (p : Page) (size : Nat) : Option GradeFail := gradeGroups p.base size 1 p.groups

/-- R21: the sizes 0..11 at which the grade check passes. -/
def Page.span (p : Page) : List Nat := (List.range 12).filter (fun s => (p.gradeCheck s).isNone)

/-- R29: the graded face of each group at a size. A page whose grade check passes has no face below 20. -/
def Page.faces (p : Page) (size : Nat) : List Nat := p.groups.map (fun g => (g.graded p.base size).toNat)

/-! ### Totals (R23 to R28) -/

/-- R22: the nominal consumption of a pleat of graded face `f`. -/
def Group.consumption (g : Group) (f : Nat) : Nat := f + g.kind.underlays * g.depth

/-- The sum over the groups of a motif pass of count times a figure of the group and its graded face. -/
def sumGroups (fig : Group → Nat → Nat) : List Group → List Nat → Nat
  | g :: gs, f :: fs => g.count * fig g f + sumGroups fig gs fs
  | _, _ => 0

/-- R24: N_J. -/
def Page.totalN (p : Page) (size : Nat) : Nat :=
  p.waist + p.hem + p.motif * sumGroups Group.consumption p.groups (p.faces size)

/-- R24: W_J. -/
def Page.totalW (p : Page) (size : Nat) : Nat :=
  p.waist + p.hem + p.motif * sumGroups (fun _ f => f) p.groups (p.faces size)

/-- 1 when a length is not 0. -/
def present (len : Nat) : Nat := if len = 0 then 0 else 1

/-- R23: the unit count J. -/
def Page.units (p : Page) : Nat :=
  present p.waist + p.motif * (p.groups.map Group.count).sum + present p.hem

/-- R23: the stroke count. -/
def Page.strokeCount (p : Page) : Nat := p.motif * (p.groups.map (fun g => g.count * g.kind.strokes.length)).sum

/-- R25: a running total scaled by the shrink allowance k, rounded half up. -/
def scaled (k x : Nat) : Nat := (20000 * x + (10000 - k)) / (2 * (10000 - k))

/-- The measurement of a page at a size and a k (R27). -/
structure Measured where
  k : Nat
  n : Nat
  w : Nat
  t : Nat
  out : Nat
  deriving DecidableEq, Repr

/-- R27: the takeup and the output length. -/
def Page.measure (p : Page) (size k : Nat) : Measured :=
  ⟨k, p.totalN size, p.totalW size, scaled k (p.totalN size), scaled k (p.totalW size)⟩

/-- R27: which bounds a measurement breaks: bit 0 an output length below 1,000, bit 1 above 40,000, bit 2 T above 120,000 (the
order of the bits is the model's, log entry 10). -/
def Measured.broken (m : Measured) : Nat :=
  (if m.out < 1000 then 1 else 0) + (if 40000 < m.out then 2 else 0) + (if 120000 < m.t then 4 else 0)

/-- R27: within limits. -/
def Measured.ok (m : Measured) : Bool := m.broken == 0

/-- R51, R54: the registration fit of a MARKED order. -/
def Marks.fits (r : Marks) (t gap : Nat) : Bool := t + gap ≤ r.mult * r.rep

/-! ### The pleat cursor and fold units (R22, R23, R65) -/

/-- R65: the first pleat of the motif. -/
def Cursor.motifStart : Cursor := ⟨.motif, 1, 1, 1⟩

/-- R65: the first unit of a panel. -/
def Page.firstCursor (p : Page) : Cursor := if p.waist = 0 then Cursor.motifStart else ⟨.waist, 0, 0, 0⟩

/-- The group of an index from 1. -/
def Page.group (p : Page) (i : Nat) : Option Group := p.groups[i - 1]?

/-- R65: the cursor after a draw. -/
def Page.nextCursor (p : Page) (c : Cursor) : Cursor :=
  match c.part with
  | .waist => Cursor.motifStart
  | .motif =>
    if c.pleat < ((p.group c.group).map Group.count).getD 0 then { c with pleat := c.pleat + 1 }
    else if c.group < p.groups.length then { c with group := c.group + 1, pleat := 1 }
    else if c.pass < p.motif then ⟨.motif, c.pass + 1, 1, 1⟩
    else if p.hem = 0 then ⟨.atEnd, 0, 0, 0⟩
    else ⟨.hem, 0, 0, 0⟩
  | _ => ⟨.atEnd, 0, 0, 0⟩

/-- R22: nominal consumption, nominal output and the folded group of the unit at a cursor. -/
def Page.unitAt (p : Page) (faces : List Nat) (c : Cursor) : Nat × Nat × Option Group :=
  match c.part with
  | .waist => (p.waist, p.waist, none)
  | .hem => (p.hem, p.hem, none)
  | .motif =>
    match p.group c.group with
    | some g => let f := faces.getD (c.group - 1) 0; (g.consumption f, f, some g)
    | none => (0, 0, none)
  | _ => (0, 0, none)

/-- R31: position of the stroke of an index in a draw, before the alignment offset. -/
def strokePos (strokes draw index : Nat) : Nat := if strokes = 2 ∧ index = 0 then draw / 2 else draw

/-- R31: the strokes of a folded unit. -/
def Group.strokeList (g : Group) (draw overtravel offset : Nat) : List Stroke :=
  g.kind.strokes.zipIdx.map (fun d =>
    ⟨g.depth + overtravel, d.1, strokePos g.kind.strokes.length draw d.2 + offset⟩)

/-- R29: the accumulators at a panel start. -/
def Page.meter (p : Page) (letter : Letter) (size k : Nat) : Meter :=
  let m := p.measure size k
  { letter := letter, size := size, k := k, faces := p.faces size, j := 0, n := 0, w := 0, m := 0, q := 0
    takeup := m.t, out := m.out }

/-- R29: the accumulators moved to the next unit, of nominal consumption `n` and output `w`. -/
def Meter.move (a : Meter) (n w : Nat) : Meter :=
  { a with j := a.j + 1, n := a.n + n, w := a.w + w, m := scaled a.k (a.n + n), q := scaled a.k (a.w + w) }

/-- R26, R31: the unit of the panel that the cursor names, with its draw and its output. -/
def Page.foldUnit (p : Page) (a : Meter) (c : Cursor) (overtravel offset : Nat) : DrawUnit :=
  let (n, w, g) := p.unitAt a.faces c
  let b := a.move n w
  { fold := true, draw := b.m - a.m, output := b.q - a.q
    strokes := (g.map (fun x => x.strokeList (b.m - a.m) overtravel offset)).getD [], trial := none }

end Sys2Proof.Machine
end

