-- ==== Sys2Proof/Machine/Flags.lean ====
section
/-! DEFINITION. Marks, sets and codes: the hold-reason set, the halt set, the completion codes, and the read-only summaries of the
control window (R161, R162, R176, R178). -/

namespace Sys2Proof.Machine

/-! ### Hold reasons (R131) and halt causes (R135) -/

/-- The set with a hold reason put in (`on`) or taken out. -/
def Holds.put (h : Holds) (on : Bool) : HoldReason → Holds
  | .operator => { h with operator := on }
  | .heat => { h with heat := on }
  | .noOrder => { h with noOrder := on }
  | .panelsFull => { h with panelsFull := on }
  | .mapFull => { h with mapFull := on }

/-- Whether a hold reason is in the set. -/
def Holds.has (h : Holds) : HoldReason → Bool
  | .operator => h.operator
  | .heat => h.heat
  | .noOrder => h.noOrder
  | .panelsFull => h.panelsFull
  | .mapFull => h.mapFull

/-- R131: on entering STOPPING, OPERATOR, HEAT and NO_ORDER leave the set. -/
def Holds.stopping (h : Holds) : Holds := { h with operator := false, heat := false, noOrder := false }

/-- The set with a halt cause in it. -/
def Halts.add (h : Halts) : HaltCause → Halts
  | .estop => { h with estop := true }
  | .driveFault => { h with driveFault := true }
  | .tailOut => { h with tailOut := true }
  | .spliceFault => { h with spliceFault := true }
  | .missedFolds => { h with missedFolds := true }
  | .sensor => { h with sensor := true }
  | .overtemp => { h with overtemp := true }
  | .overfill => { h with overfill := true }
  | .feedStall => { h with feedStall := true }

/-- R137: the least speed of a range. -/
def SpeedRange.min : SpeedRange → Nat
  | .low => 5
  | .high => 20

/-- R137: the greatest speed of a range. -/
def SpeedRange.max : SpeedRange → Nat
  | .low => 40
  | .high => 240

/-! ### Codes of the window and the records (11_formats.md) -/

/-- A flag at a bit of a byte. -/
def bit (b : Bool) (i : Nat) : Nat := if b then 2 ^ i else 0

/-- Line state codes of the window. -/
def LineState.code : LineState → Nat
  | .off => 0
  | .standby => 1
  | .thread => 2
  | .starting => 3
  | .run => 4
  | .hold => 5
  | .stopping => 6
  | .halt => 7

/-- Halt cause codes of the window; 0 is none. -/
def HaltCause.code : HaltCause → Nat
  | .estop => 1
  | .driveFault => 2
  | .tailOut => 3
  | .spliceFault => 4
  | .missedFolds => 5
  | .sensor => 6
  | .overtemp => 7
  | .overfill => 8
  | .feedStall => 9

/-- The code of the first halt cause, 0 for none. -/
def causeCode (c : Option HaltCause) : Nat := (c.map HaltCause.code).getD 0

/-- The hold reasons as the window gives them. -/
def Holds.bits (h : Holds) : Nat :=
  bit h.operator 0 + bit h.heat 1 + bit h.noOrder 2 + bit h.panelsFull 3 + bit h.mapFull 4

/-- The halt set as the window gives it: bit n - 1 stands for cause n. -/
def Halts.bits (h : Halts) : Nat :=
  bit h.estop 0 + bit h.driveFault 1 + bit h.tailOut 2 + bit h.spliceFault 3 + bit h.missedFolds 4 + bit h.sensor 5 +
    bit h.overtemp 6 + bit h.overfill 7 + bit h.feedStall 8

/-- Interface state codes of the window. -/
def PortState.code : PortState → Nat
  | .uninitialised => 0
  | .initialising => 1
  | .ready => 2
  | .initFailed => 3

/-- Interface fault codes of the window. -/
def PortFault.code : PortFault → Nat
  | .none => 0
  | .badBlock => 1
  | .badRing => 2
  | .busFault => 3
  | .ringFault => 4

/-- Constants outcome codes of the window. -/
def ConstsOutcome.code : ConstsOutcome → Nat
  | .none => 0
  | .absent => 1
  | .applied => 2
  | .kept => 3
  | .refused _ => 4

/-- Scan codes of the window. -/
def Scan.code : Scan → Nat
  | .idle => 0
  | .active => 1
  | .suspended => 2

/-! ### Completion codes (R178) -/

/-- The completion codes and the three results of an abort (R178). -/
inductive Code where
  | done | badKind | badParam | badSenseLength | segmentList | busFault
  | noRecord | duplicate | tableFull | inUse | protect | limit | gradeRange | fit
  | wrongState | notAligned | heatTimeout | lineHalted | spliceFault | alignRange
  | aborted | found | notFound | notAbortable
  deriving DecidableEq, Repr

/-- The value of a completion code (R178). -/
def Code.value : Code → Nat
  | .done => 0x00
  | .badKind => 0x01
  | .badParam => 0x02
  | .badSenseLength => 0x03
  | .segmentList => 0x04
  | .busFault => 0x05
  | .noRecord => 0x10
  | .duplicate => 0x11
  | .tableFull => 0x12
  | .inUse => 0x13
  | .protect => 0x14
  | .limit => 0x15
  | .gradeRange => 0x16
  | .fit => 0x17
  | .wrongState => 0x20
  | .notAligned => 0x21
  | .heatTimeout => 0x22
  | .lineHalted => 0x23
  | .spliceFault => 0x24
  | .alignRange => 0x25
  | .aborted => 0x30
  | .found => 0x38
  | .notFound => 0x39
  | .notAbortable => 0x3A

/-! ### The window's read-only summaries (R161, R162, R176) -/

/-- Whether an entry is a held Await Panel Exit (R166, R168): it runs or awaits a return slot (00_scope.md, Held request), and it passed
the port's checks (also one that its owner refused: DEDUCED, log entry 47). -/
def Entry.isAwait (e : Entry) : Bool :=
  match e.req, e.stage with
  | some (_, .awaitPanelExit), .running => true
  | some (_, .awaitPanelExit), .posting => true
  | _, _ => false

/-- Table entries in a stage (R162). -/
def Port.countStage (p : Port) (f : Stage → Bool) : Nat := (p.table.filter (fun e => f e.stage)).length

/-- Byte 3 of the bootstrap port: the failing row under REFUSED, the ring and slot under RING_FAULT (11_formats.md). Where both stand, the
ring and slot: DESIGN CHOICE (log entry 62). -/
def Port.detailByte (p : Port) : Nat :=
  match p.fault, p.ringFault, p.outcome with
  | .ringFault, some (ret, i), _ => bit ret 7 + i % 64
  | .ringFault, none, _ => 0
  | _, _, .refused row => row
  | _, _, _ => 0

/-- What a read of the bootstrap port returns: the interface status summary (R162, 11_formats.md). -/
def State.statusSummary (s : State) : List Byte :=
  let p := s.port
  let awaits := (p.table.filter Entry.isAwait).length
  [p.state.code + 4 * p.scan.code + bit p.attention 4 + 32 * awaits, p.fault.code, p.outcome.code, p.detailByte,
    p.countStage (· == .taken),
    p.countStage (fun t => match t with | .waiting _ => true | _ => false),
    p.countStage (· == .running), p.countStage (· == .posting)].map (BitVec.ofNat 8)

/-- What a read of the strobe port returns: the line summary (R126, 11_formats.md). -/
def State.lineSummary (s : State) : List Byte :=
  [BitVec.ofNat 8 s.line.state.code, BitVec.ofNat 8 s.line.holds.bits, BitVec.ofNat 8 (causeCode s.line.cause), 0] ++
    leBytes 2 s.line.halts.bits ++ [0, 0]

/-- What a read of the attention port returns (R161). -/
def State.attentionSummary (s : State) : List Byte := BitVec.ofNat 8 (flagNat s.port.attention) :: List.replicate 7 0

/-- What a read of the reset port returns: the interface state (R161). -/
def State.resetSummary (s : State) : List Byte := BitVec.ofNat 8 s.port.state.code :: List.replicate 7 0

/-- The 32 bytes of the control window (R161, R176). -/
def State.window (s : State) : List Byte :=
  s.statusSummary ++ s.lineSummary ++ s.attentionSummary ++ s.resetSummary

end Sys2Proof.Machine
end

