-- ==== Sys2Proof/Machine/Formats.lean ====
section
/-! DEFINITION. Formats (R176, 11_formats.md): the bytes of every record and area the part writes, and of the line constants and the
page it reads. Reserved bytes and bits are written 0. -/

namespace Sys2Proof.Machine

/-- One byte of a number. -/
def b8 (v : Nat) : Byte := BitVec.ofNat 8 v

/-- A number as little-endian bytes. -/
def le (n v : Nat) : List Byte := leBytes n v

/-- Zero bytes. -/
def zeros (n : Nat) : List Byte := List.replicate n 0

/-- An absent number is written as 0 (R176). -/
def orZero (v : Option Nat) : Nat := v.getD 0

/-! ### Codes of the records -/

/-- Page letters: 1 A, 2 B. -/
def Letter.code : Letter → Nat
  | .a => 1
  | .b => 2

/-- Code 0 for an absent letter (R176). -/
def letterCode (x : Option Letter) : Nat := (x.map Letter.code).getD 0

/-- Slot states: 1 ACTIVE, 2 RETIRING; 0 FREE. -/
def SlotState.code : SlotState → Nat
  | .free => 0
  | .active => 1
  | .retiring => 2

/-- Order states. -/
def OrderState.code : OrderState → Nat
  | .queued => 1
  | .forming => 2
  | .awaitingExit => 3

/-- Order classes: 1 RUSH, 2 NORMAL. -/
def OrderClass.code : OrderClass → Nat
  | .rush => 1
  | .normal => 2

/-- Roll states. -/
def RollState.code : RollState → Nat
  | .staged => 1
  | .mounted => 2
  | .prepared => 3
  | .running => 4
  | .spent => 5

/-- Spindles: 1 A, 2 B. -/
def spindleIdCode : SpindleId → Nat
  | .a => 1
  | .b => 2

/-- Code 0 for an absent spindle (R176). -/
def spindleCode (x : Option SpindleId) : Nat := (x.map spindleIdCode).getD 0

/-- Spindle states. -/
def SpindleState.code : SpindleState → Nat
  | .empty => 0
  | .loaded => 1
  | .ready => 2
  | .feeding => 3
  | .core => 4

/-- Splice sequence states. -/
def SpliceState.code : SpliceState → Nat
  | .idle => 0
  | .pending => 1
  | .pressing => 2

/-- Panel states. -/
def PanelState.code : PanelState → Nat
  | .forming => 1
  | .inPath => 2
  | .exited => 3

/-- Verdicts: 0 absent, 1 GOOD, 2 REJECT. -/
def verdictCode : Option Verdict → Nat
  | none => 0
  | some .good => 1
  | some .reject => 2

/-- Reasons of a panel record. -/
def Reasons.bits (r : Reasons) : Nat :=
  bit r.underset 0 + bit r.scorched 1 + bit r.missedFolds 2 + bit r.cut 3 + bit r.unregistered 4 + bit r.purged 5

/-- Segment kinds. -/
def SegKind.code : SegKind → Nat
  | .panel => 1
  | .flat => 2
  | .splice => 3
  | .trial => 4

/-- Cursor sections: 0 none, 1 WAIST, 2 MOTIF, 3 HEM, 4 end. -/
def Section.code : Section → Nat
  | .none => 0
  | .waist => 1
  | .motif => 2
  | .hem => 3
  | .atEnd => 4

/-- Head states. -/
def HeadState.code : HeadState → Nat
  | .retracted => 0
  | .flat => 1
  | .forming => 2
  | .aligning => 3

/-- Passage stages. -/
def Passage.code : Passage → Nat
  | .none => 0
  | .guard => 1
  | .splice => 2

/-- The last result of an ALIGN_RANGE, coded by the model: 1 EARLY, 2 LATE (log entry 10). -/
def trialCode (late : Bool) : Nat := if late then 2 else 1

/-! ### Pages -/

/-- A group entry of a page. -/
def Group.bytes (g : Group) : List Byte :=
  [b8 g.kind.code, b8 g.count] ++ le 2 g.face ++ le 2 g.depth ++ [BitVec.ofInt 8 g.step, 0]

/-- A page in the layout in which Define Pattern takes it (R14). -/
def Page.bytes (p : Page) : List Byte :=
  p.name ++ [b8 p.base, b8 p.motif] ++ le 2 p.waist ++ le 2 p.hem ++ [b8 p.groups.length, 0] ++ p.groups.flatMap Group.bytes

/-! ### Line constants -/

/-- The constants as fields in the layout of the initialisation block; each zone length is a field of one byte: DESIGN CHOICE (log
entry 55). -/
def constsFields (k : Consts) : List (List Byte) :=
  [le 2 k.p, le 2 k.q, le 2 k.dEntry, [b8 k.zone1], [b8 k.zone2], [b8 k.zone3], [b8 k.zone4], le 2 k.overlap, le 4 k.cap,
    le 4 k.reserve, le 4 k.rs, le 2 k.guardLen, le 2 k.gap, [b8 k.overtravel], [b8 k.window], [b8 k.missTolerance],
    [b8 (flagNat k.stopOnTwo)], [b8 k.startTimeout], [b8 k.spliceTimeout], zeros 2]

/-- The constants in the layout of the initialisation block. -/
def constsBytes (k : Consts) : List Byte := (constsFields k).flatten

/-- The constants that 36 bytes spell. -/
def parseConsts (bs : List Byte) : Consts :=
  { p := (u16At bs 0x00).toNat, q := (u16At bs 0x02).toNat, dEntry := (u16At bs 0x04).toNat
    zone1 := (byteAt bs 0x06).toNat, zone2 := (byteAt bs 0x07).toNat, zone3 := (byteAt bs 0x08).toNat
    zone4 := (byteAt bs 0x09).toNat, overlap := (u16At bs 0x0A).toNat, cap := (u32At bs 0x0C).toNat
    reserve := (u32At bs 0x10).toNat, rs := (u32At bs 0x14).toNat, guardLen := (u16At bs 0x18).toNat
    gap := (u16At bs 0x1A).toNat, overtravel := (byteAt bs 0x1C).toNat, window := (byteAt bs 0x1D).toNat
    missTolerance := (byteAt bs 0x1E).toNat, stopOnTwo := bitSet (byteAt bs 0x1F).toNat 0
    startTimeout := (byteAt bs 0x20).toNat, spliceTimeout := (byteAt bs 0x21).toNat }

/-- A constant out of range (R143): its row of the table from 1, its offset in the layout, and the value and the bounds. -/
structure ConstFail where
  row : Nat
  offset : Nat
  vals : List Int
  deriving DecidableEq, Repr

/-- One range check of R143. -/
def constRange (row offset v lo hi : Nat) : Option ConstFail :=
  if lo ≤ v ∧ v ≤ hi then none else some ⟨row, offset, [(v : Int), (lo : Int), (hi : Int)]⟩

/-- R143: the first constant out of range, in the order of the table; the present store is checked at C's row (log entry 29). DESIGN
CHOICE: a sum of zone lengths other than 64 is reported at field 06h as the sum with the bounds 64 and 64 (log entry 58), and the upper
bound reported for Q is the lesser of 10,000 and P - 1 (log entry 59). -/
def constsFirstFail (k : Consts) (store : Nat) : Option ConstFail :=
  [constRange 1 0x00 k.p 2000 20000, constRange 2 0x02 k.q 500 (min 10000 (k.p - 1)), constRange 3 0x04 k.dEntry 1000 8000,
    constRange 4 0x06 k.zone1 4 52, constRange 4 0x07 k.zone2 4 52, constRange 4 0x08 k.zone3 4 52,
    constRange 4 0x09 k.zone4 4 52, constRange 4 0x06 (k.zone1 + k.zone2 + k.zone3 + k.zone4) 64 64,
    constRange 5 0x0C k.cap 20000 200000,
    if k.cap < store then some ⟨5, 0x0C, [(k.cap : Int), (store : Int)]⟩ else none,
    constRange 6 0x10 k.reserve (k.cap / 4) k.cap, constRange 7 0x14 k.rs 50000 1000000,
    constRange 8 0x0A k.overlap 300 1000, constRange 9 0x18 k.guardLen 500 2000, constRange 10 0x1A k.gap 0 5000,
    constRange 11 0x1C k.overtravel 0 30, constRange 12 0x1D k.window 0 3, constRange 13 0x1E k.missTolerance 0 15,
    constRange 15 0x20 k.startTimeout 1 30, constRange 16 0x21 k.spliceTimeout 2 60].findSome? id

/-! ### Records returned -/

/-- The cursor bytes of a record. -/
def Cursor.bytes (c : Cursor) : List Byte := [b8 c.part.code, b8 c.pass, b8 c.group, b8 c.pleat]

/-- The page of the FORMING panel's bound order (R54). -/
def State.boundPage (s : State) : Option Page :=
  match s.head.bound with
  | some b => (s.slot b.pattern).page b.letter
  | none => none

/-- The unit count J of the FORMING panel (R23), 0 where there is none. -/
def State.unitCount (s : State) : Nat :=
  match s.head.panel with
  | some _ => (s.boundPage.map Page.units).getD 0
  | none => 0

/-- The index j of the last unit drawn of the FORMING panel (R29). -/
def State.lastUnit (s : State) : Nat := (s.head.meter.map Meter.j).getD 0

/-- A panel record of 72 bytes (R92, R103). -/
def State.panelRecord (s : State) (p : Panel) : List Byte :=
  let forming := p.state == .forming
  le 2 p.id ++ [b8 p.state.code, b8 (bit p.minDose.isSome 0 + bit p.exitTime.isSome 1 + bit p.segment.isSome 2)] ++
    le 2 p.order ++ [b8 p.pattern, b8 p.page.code, b8 p.size, b8 (bit p.unregistered 0 + bit p.cut 1 + bit p.purged 2),
      b8 (verdictCode p.verdict), b8 p.reasons.bits] ++
    le 4 p.roll ++ le 2 (orZero p.segment) ++ le 2 p.k ++ le 4 p.takeup ++ le 4 p.out ++ le 4 p.strokes ++ le 4 p.formed ++
    le 4 p.missed ++ le 4 (orZero p.minDose) ++ le 2 p.peak ++
    (if forming then s.head.cursor.bytes else zeros 4) ++ zeros 2 ++
    le 4 p.started.toNat ++ le 4 ((p.exitTime.map BitVec.toNat).getD 0) ++
    (if forming then le 4 s.unitCount ++ le 4 s.lastUnit else zeros 8) ++ zeros 4

/-- A segment record of 40 bytes (R88, R104). -/
def Segment.bytes (g : Segment) : List Byte :=
  le 2 g.number ++ [b8 g.kind.code, b8 (bit g.fEnd.isSome 0)] ++ le 4 g.roll ++ le 2 (orZero g.panel) ++ le 6 g.fStart ++
    le 6 (orZero g.fEnd) ++ le 6 g.oStart ++ le 6 (orZero g.oEnd) ++ zeros 6

/-- An order record of 32 bytes with its place in the queue sequence (R49, R62). -/
def Order.bytes (o : Order) (place : Nat) : List Byte :=
  le 2 o.tag ++ [b8 o.pattern, b8 o.size, b8 o.cls.code, b8 o.state.code, b8 (letterCode o.page),
      b8 (bit o.marks.isSome 0 + bit o.cancel 1 + bit o.watch.isSome 2)] ++
    le 2 o.n ++ le 2 o.m ++ le 2 o.formed ++ le 2 o.good ++ le 2 o.reject ++ [b8 o.remakeLimit, b8 o.remakes, b8 o.live,
      b8 ((o.marks.map Marks.mult).getD 0)] ++ le 2 ((o.marks.map Marks.offset).getD 0) ++
    le 2 ((o.marks.map Marks.rep).getD 0) ++ [b8 place] ++ zeros 5

/-- A roll record of 32 bytes (R39, R46). -/
def Roll.bytes (r : Roll) : List Byte :=
  le 4 r.tag ++ le 4 r.declared ++ le 4 r.u ++ le 4 r.remaining ++
    [b8 r.cls, b8 r.state.code, b8 (spindleCode r.spindle), b8 (flagNat r.watch.isSome)] ++ le 2 r.width ++ le 2 r.refs ++
    zeros 8

/-- A zone record of 16 bytes (R107, R125). -/
def Zone.bytes (z : Zone) (number : Nat) (clock : Clock) : List Byte :=
  [b8 number, b8 (bit z.enabled 0 + bit z.faulted 1 + bit z.ready 2 + bit z.purging 3 + bit z.target.isSome 4 +
      bit z.timer.isSome 5)] ++
    le 2 z.setPoint ++ le 2 (orZero z.target) ++ le 2 z.reading ++ le 2 z.lastGood ++ le 2 z.duty ++ [b8 z.faultRun, 0] ++
    le 2 (match z.timer with | some t => min 65535 (elapsed clock t) | none => 0)

/-- A cell record of 20 bytes (R116, R125). -/
def Cell.bytes (c : Cell) (index : Nat) : List Byte :=
  [b8 index, b8 (bit c.fill.isSome 0 + bit c.lower.isSome 1), b8 ((c.fill.map CellFill.cls).getD 0), 0] ++
    le 6 (orZero c.lower) ++ le 2 ((c.fill.map CellFill.first).getD 0) ++ le 2 ((c.fill.map CellFill.second).getD 0) ++
    le 2 ((c.fill.map CellFill.peak).getD 0) ++ le 4 ((c.fill.map CellFill.dose).getD 0)

/-- The head record of 48 bytes as fields (R145, R177). The panel's id, cursor, J and j are given for a FORMING panel. -/
def State.headFields (s : State) : List (List Byte) :=
  let h := s.head
  let c := if h.panel.isSome then h.cursor else Cursor.clear
  [[b8 h.state.code], [b8 h.passage.code],
    [b8 (bit h.wish 0 + bit h.aligned 1 + bit h.arrival.isSome 2 + bit h.panel.isSome 3)], [b8 h.offset],
    le 6 h.f, le 6 h.o, le 6 h.committed, le 6 ((h.arrival.map Arrival.pos).getD 0),
    le 4 ((h.arrival.map Arrival.roll).getD 0), le 2 (orZero h.panel), [b8 c.part.code], [b8 c.pass], [b8 c.group],
    [b8 c.pleat], zeros 2, le 4 s.unitCount, le 4 (if h.panel.isSome then s.lastUnit else 0)]

/-- The line, speed and accumulator parts of Read Line Status (R145). -/
def State.lineStatus (s : State) : List Byte :=
  let l := s.line
  [b8 l.state.code, b8 l.holds.bits, b8 (causeCode l.cause),
      b8 (bit l.consts.isSome 0 + bit (l.range == .high) 1 + bit l.latchShut 2 + bit l.unwind 3 + bit l.starved 4 +
        bit l.deadline.isSome 5 + bit l.stall.isSome 6)] ++
    le 2 l.halts.bits ++ [b8 l.commanded, b8 l.limit, b8 l.ceiling, b8 (orZero l.limiting), b8 l.effective, b8 l.speedRef] ++
    le 4 l.clock.toNat ++ le 4 (orZero l.deadline) ++ le 4 l.store ++ le 4 s.k.cap ++
    le 4 ((l.stall.map (fun c => (c + BitVec.ofNat 32 Config.stallTime).toNat)).getD 0)

/-- The final counts of a notify watch, at 10h of the parameter area (R61). -/
def Order.counts (o : Order) : List Byte :=
  le 2 o.n ++ le 2 o.m ++ le 2 o.formed ++ le 2 o.good ++ le 2 o.reject ++ [b8 o.remakes, b8 (flagNat o.cancel)]

end Sys2Proof.Machine
end

