-- ==== Sys2Proof/WellFormed.lean ====
section
/-! DEFINITION. Well-formed commands: what the operand widths of Syntax.lean do not already say. A command that is not well
formed still has its meaning: the port refuses the request (R166, R167). -/

namespace Sys2Proof

/-- R166, step 3: an allocation of 2..7 or above 64 is no allocation. -/
def senseOk (n : Nat) : Bool := n == 0 || n == 1 || (8 ≤ n && n ≤ 64)

/-- R167: a segment list has 1..16 entries, none of length 0. -/
def DataArea.ok : DataArea → Bool
  | .contiguous _ _ => true
  | .segmented segs => 1 ≤ segs.length && segs.length ≤ 16 && segs.all (fun g => g.len != 0)

/-- A request whose header passes the port's checks; a kind without a data area ignores the segmented flag (R167). -/
def Req.ok (q : Req) (hasData : Bool) : Bool := senseOk q.sense.toNat && (!hasData || q.data.ok)

/-- A command whose request, where it carries one, passes the port's checks (R166, R167). -/
def Instr.wf : Instr → Bool
  | .powerOn _ _ => true
  | .bootstrapWrite _ _ => true
  | .bootstrapEnd _ => true
  | .scanStrobe _ => true
  | .attentionWrite _ => true
  | .interfaceReset _ => true
  | .slotExamination _ => true
  | .requestBlockRead _ _ => true
  | .definePattern _ q => q.ok true
  | .amendPattern _ q => q.ok true
  | .pageFetchDone _ _ => true
  | .readPattern _ q _ => q.ok true
  | .retirePattern _ q => q.ok false
  | .measurePattern _ q _ => q.ok false
  | .setFibreClass _ q _ => q.ok false
  | .clearFibreClass _ q _ => q.ok false
  | .readFibreClass _ q _ => q.ok false
  | .registerRoll _ q _ => q.ok false
  | .amendRoll _ q _ => q.ok false
  | .readRoll _ q => q.ok true
  | .retireRoll _ q => q.ok false
  | .placeOrder _ q _ => q.ok false
  | .readOrder _ q => q.ok true
  | .cancelOrder _ q _ => q.ok false
  | .alignBlade _ q => q.ok false
  | .readPanel _ q => q.ok true
  | .awaitPanelExit _ q => q.ok true
  | .releasePanel _ q => q.ok false
  | .readWebMap _ q => q.ok true
  | .purgeWeb _ q => q.ok false
  | .setZones _ q _ => q.ok false
  | .readZones _ q _ => q.ok true
  | .energise _ q => q.ok false
  | .deEnergise _ q => q.ok false
  | .thread _ q => q.ok false
  | .start _ q => q.ok false
  | .stop _ q _ => q.ok false
  | .hold _ q => q.ok false
  | .resume _ q => q.ok false
  | .clearHalt _ q => q.ok false
  | .setSpeed _ q _ => q.ok false
  | .setRange _ q _ => q.ok false
  | .setLineConstants _ q => q.ok true
  | .readLineStatus _ q _ => q.ok true
  | .mountRoll _ q _ => q.ok false
  | .spliceNow _ q => q.ok false
  | .meteringAdvance _ _ => true
  | .pleatDone _ _ => true
  | .unwindAdvance _ _ => true
  | .markSensor _ => true
  | .spindleReady _ _ _ => true
  | .coreRemoved _ _ _ => true
  | .spliceMade _ _ => true
  | .zoneSample _ _ _ => true
  | .emergencyStopInput _ _ => true
  | .driveFaultInput _ _ => true
  | .feedStall _ => true
  | .startDeadlineExpiry _ => true
  | .spliceTimeout _ => true
  | .purgeBegin _ _ => true
  | .purgeEnd _ _ => true

end Sys2Proof
end

