-- ==== Sys2Proof/Machine/Operands.lean ====
section
/-! DEFINITION. Operands: data areas and their addresses (R167), the request header (11_formats.md), field identifiers and sense records
(R170, R178), and the reading and validation of a page (R7, R8, R9). -/

namespace Sys2Proof.Machine

/-! ### Data areas (R167) -/

/-- A data area as a list of segments: an address and a length each. -/
def dataSpans (d : DataArea) : List (Nat × Nat) :=
  match d with
  | .contiguous a n => [(a.toNat, n.toNat)]
  | .segmented gs => gs.map (fun g => (g.addr.toNat, g.len.toNat))

/-- R167: the total length of a data area. -/
def dataTotal (d : DataArea) : Nat := ((dataSpans d).map Prod.snd).sum

/-- The first `n` addresses of a list of segments, in order. -/
def spanAddrs : List (Nat × Nat) → Nat → List Nat
  | [], _ => []
  | (a, len) :: gs, n => addrs a (min len n) ++ spanAddrs gs (n - len)

/-- The first `n` addresses of a data area. -/
def dataAddrs (d : DataArea) (n : Nat) : List Nat := spanAddrs (dataSpans d) n

/-- R167: bytes written out to a data area, up to the end of its last segment. -/
def dataBytes (d : DataArea) (bs : List Byte) : List (Nat × Byte) := (dataAddrs d bs.length).zip bs

/-- The residual of bytes written out byte by byte (R14). -/
def residualBytes (d : DataArea) (bs : List Byte) : Nat := bs.length - dataTotal d

/-- R176: as many whole records as fit in the data area. -/
def wholeRecords (d : DataArea) (size : Nat) (rs : List (List Byte)) : List (List Byte) := rs.take (dataTotal d / size)

/-- The bytes of the records written, and the residual (R46, R62, R103, R104). -/
def recordBytes (d : DataArea) (size : Nat) (rs : List (List Byte)) : List (Nat × Byte) × Nat :=
  let fit := wholeRecords d size rs
  (dataBytes d fit.flatten, size * (rs.length - fit.length))

/-- The whole fields of a list that fit in a number of bytes, in order (R125, R145, R177). -/
def fieldsFit : Nat → List (List Byte) → List (List Byte)
  | _, [] => []
  | room, f :: fs => if f.length ≤ room then f :: fieldsFit (room - f.length) fs else []

/-- The bytes of the fields written, and the residual. -/
def fieldBytes (d : DataArea) (fs : List (List Byte)) : List (Nat × Byte) × Nat :=
  let fit := fieldsFit (dataTotal d) fs
  (dataBytes d fit.flatten, fs.flatten.length - fit.flatten.length)

/-! ### The request header (11_formats.md) -/

/-- What the port reads from a header. -/
structure Header where
  kind : Nat
  segmented : Bool
  option : Bool
  sense : U8
  len : U16
  addr : U32
  key : U32
  deriving DecidableEq, Repr

/-- The header that 32 bytes spell. -/
def parseHeader (bs : List Byte) : Header :=
  let flags := (byteAt bs 0x01).toNat
  { kind := (byteAt bs 0x00).toNat, segmented := bitSet flags 0, option := bitSet flags 1, sense := byteAt bs 0x02
    len := u16At bs 0x08, addr := u32At bs 0x0C, key := u32At bs 0x10 }

/-- The entries of a segment list from the bytes of the list (11_formats.md). -/
def parseSegs (bs : List Byte) (n : Nat) : List DataSeg :=
  (List.range n).map (fun i => ⟨u32At bs (8 * i), u32At bs (8 * i + 4)⟩)

/-! ### Sense records (R170, R178) -/

/-- A field identifier: area 0 the parameter area, 1 the header, 2 the page, 3 the line constants (R178). -/
def fieldId (area offset : Nat) : Nat := 64 * area + offset

/-- The key of the request, at 10h of the header. -/
def keyField : Nat := fieldId 1 0x10

/-- The data length of the request, at 08h of the header. -/
def lenField : Nat := fieldId 1 0x08

/-- What a sense record holds beside the completion code: the field, the key of the record concerned (the request's own key when
absent) and the values (R178; log entry 10). -/
structure Sense where
  field : Nat
  key : Option Nat
  vals : List Int
  deriving DecidableEq, Repr

/-- A sense record that names nothing. -/
def Sense.none : Sense := ⟨0, Option.none, []⟩

/-- Values with no field. -/
def senseVals (vals : List Int) : Sense := ⟨0, Option.none, vals⟩

/-- A field with its values. -/
def senseField (field : Nat) (vals : List Int) : Sense := ⟨field, Option.none, vals⟩

/-- A natural number as a sense value. -/
def natVal (v : Nat) : Int := (v : Int)

/-- A 48-bit position as two sense values, low half first (R178). -/
def posVals (v : Nat) : List Int := [natVal (v % 2 ^ 32), natVal (v / 2 ^ 32 % 2 ^ 16)]

/-- R166: the bytes of an allocation; none for an allocation that is refused. -/
def senseRoom (alloc : Nat) : Nat :=
  if alloc = 0 then 16 else if alloc = 1 then 0 else if senseOk alloc then alloc else 0

/-- The sense record in full (R178). -/
def Sense.bytes (x : Sense) (code : Code) (key : Nat) : List Byte :=
  [b8 (8 + 4 * x.vals.length), b8 code.value, b8 x.field, 0] ++ le 4 (x.key.getD key) ++
    x.vals.flatMap (fun v => leBytes 4 (BitVec.ofInt 32 v).toNat)

/-- R170: the sense record cut at the allocation, the rest of the allocation 0. -/
def Sense.area (x : Sense) (code : Code) (key alloc : Nat) : List Byte :=
  (x.bytes code key ++ zeros (senseRoom alloc)).take (senseRoom alloc)

/-! ### Completions (R170) -/

/-- The outcome of a request: its code, detail and residual, what it writes to the data area and, by offset, to the parameter
area, its sense record, and whether the data area is written first (R100) or the parameter area (R14, R62, R104, R125; log entry 9). -/
structure Answer where
  code : Code
  detail : Nat
  residual : Nat
  data : List (Nat × Byte)
  params : List (Nat × List Byte)
  sense : Sense
  dataFirst : Bool := false
  deriving DecidableEq, Repr

/-- DONE, writing nothing. -/
def done : Answer := ⟨.done, 0, 0, [], [], Sense.none, false⟩

/-- DONE with a detail. -/
def doneDetail (d : Nat) : Answer := { done with detail := d }

/-- DONE with results in the parameter area. -/
def doneParams (ps : List (Nat × List Byte)) : Answer := { done with params := ps }

/-- A refusal with its sense record; nothing else is written (R170). -/
def refusal (c : Code) (x : Sense) : Answer := ⟨c, 0, 0, [], [], x, false⟩

/-- BAD_PARAM for a field with the value found and the bounds. -/
def badField (field : Nat) (vals : List Int) : Answer := refusal .badParam (senseField field vals)

/-! ### Pages (R7, R8, R9) -/

/-- The kind a code names (R8). -/
def kindOfCode (c : Nat) : Option FoldKind :=
  match c with
  | 0 => some .flat
  | 1 => some .knifeLeft
  | 2 => some .knifeRight
  | 3 => some .box
  | 4 => some .invertedBox
  | _ => none

/-- The entry of a group of a page, from its bytes; `none` for a code that names no kind. -/
def parseGroup (bs : List Byte) : Option Group :=
  (kindOfCode (byteAt bs 0).toNat).map (fun k =>
    { kind := k, count := (byteAt bs 1).toNat, face := (u16At bs 2).toNat, depth := (u16At bs 4).toNat
      step := signed8 (byteAt bs 6) })

/-- R8, step 4: the first field of a group entry out of range: its offset in the entry and the value found. -/
def groupFault (bs : List Byte) : Option (Nat × Int) :=
  match parseGroup bs with
  | none => some (0, natVal (byteAt bs 0).toNat)
  | some g =>
    if ¬ (1 ≤ g.count ∧ g.count ≤ 255) then some (1, natVal g.count)
    else if ¬ (20 ≤ g.face ∧ g.face ≤ 2000) then some (2, natVal g.face)
    else if ¬ (if g.kind = .flat then g.depth = 0 else 20 ≤ g.depth ∧ g.depth ≤ 600) then some (4, natVal g.depth)
    else if ¬ (-50 ≤ g.step ∧ g.step ≤ 50) then some (6, g.step)
    else none

/-- Group entries from bytes, from an index; the first fault carries its group index (R8). -/
def parseGroups : Nat → Nat → List Byte → Except Answer (List Group)
  | _, 0, _ => .ok []
  | i, n + 1, bs =>
    match groupFault bs, parseGroup bs with
    | none, some g =>
      match parseGroups (i + 1) n (bs.drop 8) with
      | .ok gs => .ok (g :: gs)
      | .error e => .error e
    | some (off, v), _ => .error (badField (fieldId 2 off) [natVal i, v])
    | none, none => .error (badField (fieldId 2 0) [natVal i, 0])

/-- R8: the range checks of an assembled page of `g` groups, in order. -/
def parsePage (bs : List Byte) (g : Nat) : Except Answer Page :=
  let base := (byteAt bs 0x08).toNat
  let motif := (byteAt bs 0x09).toNat
  let waist := (u16At bs 0x0A).toNat
  let hem := (u16At bs 0x0C).toNat
  if 11 < base then .error (badField (fieldId 2 0x08) [natVal base])
  else if 5000 < waist then .error (badField (fieldId 2 0x0A) [natVal waist])
  else if 5000 < hem then .error (badField (fieldId 2 0x0C) [natVal hem])
  else if ¬ (1 ≤ motif ∧ motif ≤ 64) then .error (badField (fieldId 2 0x09) [natVal motif])
  else
    match parseGroups 1 g (bs.drop 16) with
    | .ok gs => .ok { name := bs.take 8, base := base, waist := waist, hem := hem, motif := motif, groups := gs }
    | .error e => .error e

/-- The sense record of a measurement that is not within limits (R27, R33). -/
def fitSense (m : Measured) : Sense := senseVals [natVal m.t, natVal m.out, natVal m.k, natVal m.broken]

/-- The sense record of a failed grade check at a size (R20). -/
def gradeSense (f : GradeFail) (size : Nat) (key : Option Nat) : Sense :=
  ⟨0, key, [natVal f.index, natVal f.group.kind.code, f.face, f.bound, natVal size]⟩

/-- R9: the shape checks and the limits at the base size; none when the page passes. The sense record holds the values of R9 and then the
bound that R20 adds (log entry 10). -/
def pageShape (p : Page) : Option Answer :=
  match p.gradeCheck p.base with
  | some f =>
    some (refusal .gradeRange (senseVals
      [natVal f.index, natVal f.group.kind.code, natVal f.group.face, natVal f.group.depth, natVal p.base, f.bound]))
  | none =>
    let m := p.measure p.base 0
    if m.ok then none else some (refusal .fit (fitSense m))

/-- R8, R9: the validation of an assembled page. -/
def validatePage (bs : List Byte) (g : Nat) : Except Answer Page :=
  match parsePage bs g with
  | .error e => .error e
  | .ok p =>
    match pageShape p with
    | some e => .error e
    | none => .ok p

end Sys2Proof.Machine
end

