-- ==== Sys2Proof/Machine/Port.lean ====
section
/-! DEFINITION. The request port's shared operations: the held-request table (R168), dropping its entries (R175), ring faults (R172),
posting (R171) and completion (R170). -/

namespace Sys2Proof.Machine

/-! ### The held-request table (R168) -/

/-- An entry by its place in arrival order. -/
def State.entry (s : State) (no : Nat) : Option Entry := s.port.table.find? (fun e => e.no == no)

/-- Whether an entry is in the table still: an interface reset or a ring fault may have dropped it (R172, R175). -/
def State.holdsEntry (s : State) (no : Nat) : Bool := (s.entry no).isSome

/-- Change one entry. -/
def State.mapEntry (s : State) (no : Nat) (f : Entry → Entry) : State :=
  { s with port.table := s.port.table.map (fun e => if e.no == no then f e else e) }

/-- Move an entry to a stage. -/
def setStage (no : Nat) (st : Stage) (s : State) : State := s.mapEntry no (fun e => { e with stage := st })

/-- Record what an entry's block asks. -/
def setReq (no : Nat) (q : Req) (c : Call) (s : State) : State := s.mapEntry no (fun e => { e with req := some (q, c) })

/-- R168: free an entry; a SUSPENDED scan becomes ACTIVE. -/
def freeEntry (no : Nat) (s : State) : State :=
  { s with
    port.table := s.port.table.filter (fun e => e.no != no)
    port.scan := if s.port.scan = .suspended then .active else s.port.scan }

/-- R165, R166: enter a taken slot at the end of the table. -/
def enterEntry (block : Nat) (abort : Bool) (s : State) : State :=
  { s with
    port.table := s.port.table ++ [{ no := s.port.nextNo, block := block, abort := abort, stage := .taken, req := none }]
    port.nextNo := s.port.nextNo + 1 }

/-- R175, step 1: every entry is dropped and each owning block is told; its records and the line go on. -/
def dropRequests (s : State) : State :=
  { s with
    port.table := [], port.posting := []
    lib.bufA := none, lib.bufB := none
    lib.slots := s.lib.slots.map (fun x => { x with busy := false, watch := none })
    orders := s.orders.map (fun o => { o with watch := none })
    head.align := s.head.align.map (fun a => { a with entry := none })
    web.awaits := []
    line.stopWatches := [], line.startWatch := none
    turret.now := none
    turret.rolls := s.turret.rolls.map (fun r => { r with watch := none }) }

/-- R172: a bus fault on a ring slot; `ret` tells the return ring from the outbound ring. The constants outcome stays as it stood: DESIGN
CHOICE (log entry 49). -/
def ringFault (ret : Bool) (slot : Nat) (s : State) : State :=
  let t := dropRequests s
  { t with
    port.state := .initFailed, port.fault := .ringFault, port.ringFault := some (ret, slot)
    port.out := none, port.ret := none, port.scan := .idle, port.rescan := false, port.examined := 0
    port.attention := true }

/-! ### Posting (R171) -/

/-- The bytes of a return slot in the order in which they are written: address, code, reserved, and the state last. -/
def slotBytes (a : Nat) (it : PostItem) : List (Nat × Byte) :=
  spread a (le 4 it.block) ++ [(a + 5, b8 it.code), (a + 6, 0), (a + 7, 0), (a + 4, if it.result then 2 else 1)]

/-- R171: after a post the position moves on, attention is raised, and the entry of its last post leaves the table. -/
def posted (it : PostItem) (r : Ring) (s : State) : State :=
  let t := { s with port.ret := some { r with pos := (r.pos + 1) % r.count }, port.attention := true }
  if it.last then freeEntry it.no t else t

/-- R171, R172: a return slot that is read with no completion waiting: a bus fault on the read is a ring fault. Its state byte alone is
read: DESIGN CHOICE (log entry 60). -/
def readReturn (s : State) : State :=
  match s.port.state, s.port.ret with
  | .ready, some r => if (s.load [r.addr + 8 * r.pos + 4]).isNone then ringFault true r.pos s else s
  | _, _ => s

/-- R171: post the waiting completions in their order, as far as free return slots go. Each post is followed by the examination of the
next slot, the last one too, at once: DESIGN CHOICE for the moment (log entry 48). Of a return slot the state byte alone is read: DESIGN
CHOICE (log entry 60). -/
def postItems : List PostItem → State → State
  | [], s => readReturn { s with port.posting := [] }
  | it :: rest, s =>
    match s.port.state, s.port.ret with
    | .ready, some r =>
      let a := r.addr + 8 * r.pos
      match s.load [a + 4] with
      | some [b] =>
        if b = 0 then
          let t := s.store (slotBytes a it)
          if s.storeOk (slotBytes a it) then postItems rest (posted it r t) else ringFault true r.pos t
        else { s with port.posting := it :: rest }
      | _ => ringFault true r.pos s
    | _, _ => s

/-- R171: the return slot at the post position is examined, also when no completion waits. -/
def examineReturn (s : State) : State := postItems s.port.posting s

/-- R171: posts join those waiting, their entry is POSTING, and the return slot is examined. An entry that a ring fault dropped earlier in
the same event posts nothing any more (R172, R175; DEDUCED, log entry 72). -/
def enqueue (no : Nat) (items : List PostItem) (s : State) : State :=
  if s.holdsEntry no then
    let t := setStage no .posting s
    examineReturn { t with port.posting := t.port.posting ++ items }
  else s

/-! ### Completion (R170) -/

/-- Where the parts of an answer lie in a request block (11_formats.md). -/
def paramWrites (block : Nat) (ps : List (Nat × List Byte)) : List (Nat × Byte) :=
  ps.flatMap (fun p => spread (block + 0x20 + p.1) p.2)

/-- R170, step 1: the writes of an answer's results, in order. -/
def resultWrites (q : Req) (a : Answer) : List (Nat × Byte) :=
  if a.dataFirst then a.data ++ paramWrites q.block.toNat a.params else paramWrites q.block.toNat a.params ++ a.data

/-- R170: the answer written, BUS_FAULT standing in its place when its results fault (log entry 9). -/
def settledAnswer (q : Req) (a : Answer) (s : State) : Answer :=
  if s.storeOk (resultWrites q a) then a else refusal .busFault Sense.none

/-- R170: the writes of a completion, in order; each is attempted (log entry 4). -/
def writeAnswer (q : Req) (a : Answer) (s : State) : State :=
  let block := q.block.toNat
  let b := settledAnswer q a s
  let s1 := s.store (resultWrites q a)
  let s2 := if b.code = .done then s1
    else s1.store (spread (block + 0x40) (b.sense.area b.code q.key.toNat q.sense.toNat))
  let s3 := s2.store (spread (block + 0x04) (le 2 b.detail))
  let s4 := s3.store (spread (block + 0x08) (le 2 b.residual))
  s4.store [(block + 0x03, b8 b.code.value)]

/-- R170, R171: the block of a request is written and its post joins the queue. -/
def concludeWith (no : Nat) (q : Req) (a : Answer) (s : State) : State :=
  enqueue no [⟨no, false, (settledAnswer q a s).code.value, q.block.toNat, true⟩] (writeAnswer q a s)

/-- R170: a held or dispatched request completes. -/
def conclude (no : Nat) (a : Answer) (s : State) : State :=
  match s.entry no with
  | none => s
  | some e =>
    match e.req with
    | none => s
    | some (q, _) => concludeWith no q a s

/-- What is known of a request whose header was not read (log entry 8): its block, and its sense allocation when that byte reads. -/
def State.unreadReq (s : State) (block : Nat) : Req :=
  { block := BitVec.ofNat 32 block
    sense := match s.load [block + 2] with
      | some [b] => b
      | _ => 1
    key := 0, data := .contiguous 0 0 }

/-- Complete a request whose header was not read. -/
def concludeUnread (no block : Nat) (a : Answer) (s : State) : State := concludeWith no (s.unreadReq block) a s

/-- Complete a watch, when there is one. -/
def concludeWatch (w : Option Nat) (a : Answer) (s : State) : State :=
  match w with
  | some no => conclude no a s
  | none => s

/-- Complete several watches in turn. -/
def concludeAll (ws : List Nat) (a : Answer) (s : State) : State := ws.foldl (fun t no => conclude no a t) s

/-- R166, step 1: posted with the code DUPLICATE in the return slot only. -/
def concludeDuplicate (no block : Nat) (s : State) : State :=
  enqueue no [⟨no, false, Code.duplicate.value, block, true⟩] s

/-- R178: the stage a request was in, as the sense data of ABORTED gives it. -/
def Stage.code : Stage → Nat
  | .taken => 1
  | .waiting _ => 2
  | .running => 3
  | .posting => 0

/-- R170: ABORTED with the stage the abort found. -/
def abortedAnswer (stage : Nat) : Answer := refusal .aborted (senseVals [natVal stage])

/-- R170: LINE_HALTED with the halt cause. -/
def haltedAnswer (c : Option HaltCause) : Answer := refusal .lineHalted (senseVals [natVal (causeCode c)])

/-- R168: hold a request RUNNING. -/
def holdRunning (no : Nat) (s : State) : State := setStage no .running s

/-- R169: hold a request WAITING for a record. -/
def holdWaiting (no : Nat) (w : Await) (s : State) : State := setStage no (.waiting w) s

/-- R169: the requests waiting for a record that frees, in arrival order. -/
def State.waitingFor (s : State) (p : Await → Bool) : List Nat :=
  (s.port.table.filter (fun e => match e.stage with | .waiting w => p w | _ => false)).map Entry.no

/-- The held Await Panel Exit requests, in arrival order (R166, step 7). -/
def State.heldAwaits (s : State) : List Entry := s.port.table.filter Entry.isAwait

end Sys2Proof.Machine
end

