-- ==== Sys2Proof/Machine/Line.lean ====
section
/-! DEFINITION. The line's shared operations: its outputs (R138, R140), the splice trigger (R151, R152), what a change of line state does at
the head and the chest (R64, R108), the passage to RUN (R129), and the raising and clearing of hold reasons (R131). -/

namespace Sys2Proof.Machine

/-! ### The unwind latch and the outputs (R138, R140) -/

/-- R140: the states in which the unwind may run; also the states in which a splice may be triggered (R151). -/
def LineState.moving : LineState → Bool
  | .thread => true
  | .starting => true
  | .run => true
  | .hold => true
  | .stopping => true
  | _ => false

/-- R140: the unwind output judged afresh. -/
def judgeUnwind (s : State) : State :=
  { s with line.unwind :=
      s.line.state.moving && !s.line.latchShut && s.runningRoll.isSome && s.turret.seq != .pressing }

/-- R140: the latch judged against the store and the capacity, and the unwind output with it. -/
def judgeLatch (s : State) : State :=
  let c := s.k.cap
  judgeUnwind
    { s with line.latchShut :=
        if c - c / 10 ≤ s.line.store then true else if s.line.store < c / 2 then false else s.line.latchShut }

/-- R138: the speed reference a state drives. -/
def Line.reference (l : Line) : Nat :=
  match l.state with
  | .run => l.effective
  | .stopping => l.effective
  | .thread => l.range.min
  | _ => 0

/-- R138: the speed reference driven. -/
def driveSpeed (s : State) : State := { s with line.speedRef := s.line.reference }

/-- R138: the effective speed recomputed and the speed reference driven. -/
def recomputeSpeed (s : State) : State :=
  driveSpeed
    { s with line.effective := min (min s.line.commanded s.line.range.max) (min s.line.ceiling s.line.limit) }

/-! ### The splice trigger (R150, R151, R152) -/

/-- R150: a splice is wanted while a roll is RUNNING and a wish is set. -/
def State.wanted (s : State) : Bool :=
  s.runningRoll.isSome && (s.turret.point || s.turret.headWish || s.turret.request)

/-- R151, condition 3: where a trigger is allowed. -/
def State.triggerState (s : State) : Bool :=
  s.line.state.moving || (s.line.state == .standby && s.turret.request)

/-- R151, condition 4; not tested in STANDBY. -/
def State.reserveMet (s : State) : Bool := s.line.state == .standby || decide (s.k.reserve ≤ s.line.store)

/-- R151: F + P + A, the position of the splicer in F. -/
def State.splicerPos (s : State) : Nat := s.head.f + s.k.p + s.line.store

/-- The other spindle, when it is READY. -/
def State.readyOther (s : State) : Option SpindleId :=
  match s.otherSpindle with
  | some i => if (s.spindle i).state = .ready then some i else none
  | none => none

/-- R151: every condition of the trigger, with the spindles of the outgoing and the incoming roll. -/
def State.triggerReady (s : State) : Option (SpindleId × SpindleId) :=
  match s.feeding, s.readyOther with
  | some i, some j =>
    if s.turret.seq = .pending ∧ s.wanted ∧ s.triggerState ∧ s.reserveMet ∧ s.head.arrival = none ∧
        s.head.committed + s.k.guardLen ≤ s.splicerPos then some (i, j) else none
  | _, _ => none

/-- The tag a spindle carries. -/
def State.spindleTag (s : State) (i : SpindleId) : Nat := orZero (s.spindle i).tag

/-- R152: a trigger. -/
def trigger (i j : SpindleId) (s : State) : State :=
  judgeUnwind
    { s with
      turret.seq := .pressing
      turret.outgoing := some ⟨s.spindleTag i, i⟩, turret.incoming := some ⟨s.spindleTag j, j⟩
      turret.press := some ⟨s.line.clock, 1000 * s.k.spliceTimeout⟩
      turret.tail := false, turret.pressOut := true, line.stall := none }

/-- R151: the trigger test. -/
def triggerTest (s : State) : State :=
  match s.triggerReady with
  | some (i, j) => trigger i j s
  | none => s

/-! ### What a change of line state does at the chest (R108, R113) -/

/-- R108: the target of a zone in a line state. -/
def Zone.targetIn (z : Zone) (par : ZoneParams) (st : LineState) : Option Nat :=
  match st with
  | .off => none
  | .starting => some z.setPoint
  | .run => some z.setPoint
  | .stopping => some z.setPoint
  | _ => some (z.setPoint - par.drop)

/-- R113: a zone within its band of its target. -/
def Zone.isReady (z : Zone) (par : ZoneParams) : Bool :=
  match z.target with
  | some t => !z.faulted && decide (z.reading ≤ t + par.band) && decide (t ≤ z.reading + par.band)
  | none => false

/-- R113: the ready mark judged. -/
def Zone.judge (z : Zone) (par : ZoneParams) : Zone := { z with ready := z.isReady par }

/-- R108: the target recomputed and the ready mark judged afresh. -/
def Zone.retarget (z : Zone) (par : ZoneParams) (st : LineState) : Zone :=
  ({ z with target := z.targetIn par st }).judge par

/-- R108: a zone at a change of line state; on entering OFF valves and drains close and purge timers stand, and on leaving it the
timers start. -/
def Zone.onLine (z : Zone) (par : ZoneParams) (old new : LineState) (now : Clock) : Zone :=
  let y := z.retarget par new
  if new = .off then { y with duty := 0, purging := false, timer := none }
  else if old = .off then { y with timer := some now }
  else y

/-- R113: the answer for the enabled zones, reported to Line Control. -/
def reportReady (s : State) : State :=
  { s with line.zonesReady := s.chest.zones.all (fun z => !z.enabled || z.ready) }

/-- R108: the chest at a change of line state. -/
def chestLine (old new : LineState) (s : State) : State :=
  reportReady { s with chest.zones := s.chest.zones.map (fun z => z.onLine s.chest.par old new s.line.clock) }

/-! ### What a change of line state does at the head (R63, R64, R80) -/

/-- R63: the head state that goes with a line state and the head's own work. -/
def headStateOf (st : LineState) (panel align : Bool) : HeadState :=
  match st with
  | .run => if panel then .forming else .flat
  | .stopping => if panel then .forming else .flat
  | .thread => if align then .aligning else .flat
  | _ => .retracted

/-- R63, R64: the head state judged. -/
def judgeHead (s : State) : State :=
  { s with head.state := headStateOf s.line.state s.head.panel.isSome s.head.align.isSome }

/-- R64, R66, R142: a wanted draw is withdrawn, and starvation ends. -/
def withdraw (s : State) : State := { s with head.wanted := none, line.starved := false, line.stall := none }

/-- R69: the head is to take the actions of a boundary before the event ends. -/
def headAgain (s : State) : State := { s with head.again := true }

/-- A run kept when its purpose is one of those given. -/
def keepRun (ps : List Purpose) (r : Option Run) : Option Run :=
  match r with
  | some x => if x.purpose ∈ ps then some x else none
  | none => none

/-- A run of a purpose whose segment is still to be opened. -/
def newRun (p : Purpose) (len : Option Nat) : Run := ⟨p, len, false, none⟩

/-- Put a run in the run's place, or behind a passage in progress (R75, R180). -/
def placeRun (r : Option Run) (s : State) : State :=
  if s.head.passage = .none then { s with head.run := r } else { s with head.suspended := r }

/-- R80: entering STOPPING. A drain that is spent counts as already run; a GAP, WAIT or SEEK run gives way to the drain. -/
def headStopping (s : State) : State :=
  let kept := (keepRun [.drain, .guard, .splice] s.head.run).isSome
  let t := if s.head.wanted.any (fun u => !u.fold) && !kept then withdraw s else s
  let u := { t with
    head.run := keepRun [.drain, .guard, .splice] t.head.run, head.suspended := keepRun [.drain] t.head.suspended
    head.drainSpent := false }
  if s.head.drainSpent then placeRun (some (newRun .drain (some 0))) u else u

/-- R64: the head at a change of line state; HALT goes on with R81. On entering THREAD the THREAD run takes the place of a GAP or DRAIN
run kept from HOLD or STARTING, whose rest is lost: DESIGN CHOICE (log entry 51). -/
def headLine (st : LineState) (s : State) : State :=
  match st with
  | .run =>
    headAgain
      { s with
        head.run := keepRun [.gap, .drain, .guard, .splice] s.head.run
        head.suspended := keepRun [.gap, .drain] s.head.suspended
        head.counting := s.head.counting && s.head.panel.isSome
        head.expected := if s.head.panel.isSome then s.head.expected else none }
  | .stopping => headAgain (headStopping s)
  | .thread => headAgain (placeRun (some (newRun .thread none)) (withdraw s))
  | .halt => withdraw s
  | _ =>
    let t := withdraw s
    { t with
      head.run := keepRun [.gap, .drain, .guard, .splice] t.head.run
      head.suspended := keepRun [.gap, .drain] t.head.suspended }

/-! ### Changes of line state -/

/-- R131: the hold-reason set in a state entered. -/
def Holds.entering (h : Holds) : LineState → Holds
  | .standby => Holds.empty
  | .off => Holds.empty
  | .halt => Holds.empty
  | .stopping => h.stopping
  | _ => h

/-- R129, R130, R134, R135: the start deadline goes on in STARTING and HOLD alone. -/
def deadlineIn (d : Option Nat) : LineState → Option Nat
  | .starting => d
  | .hold => d
  | _ => none

/-- A change of line state, reported to the head, the chest and the turret in its event (R64, R108, R151). -/
def lineTo (st : LineState) (s : State) : State :=
  let old := s.line.state
  let t := { s with
    line.state := st, line.holds := s.line.holds.entering st, line.deadline := deadlineIn s.line.deadline st }
  triggerTest (judgeUnwind (driveSpeed (chestLine old st (judgeHead (headLine st t)))))

/-- R129: whether a STARTING line passes to RUN. -/
def State.mayRun (s : State) : Bool :=
  s.line.state == .starting && s.head.aligned && s.runningRoll.isSome && s.line.zonesReady &&
    decide (s.line.range.min ≤ s.line.ceiling)

/-- R129: the test for RUN; on entering RUN a start watch completes as DONE. -/
def testRun (s : State) : State :=
  if s.mayRun then
    let t := lineTo .run s
    concludeWatch t.line.startWatch done { t with line.startWatch := none }
  else s

/-- A change of line state, with the test for RUN that entering STARTING makes (R129). -/
def enterLine (st : LineState) (s : State) : State := testRun (lineTo st s)

/-! ### Hold reasons (R131) -/

/-- R131: a hold reason raised. -/
def raiseReason (r : HoldReason) (s : State) : State :=
  let t := { s with line.holds := s.line.holds.put true r }
  match s.line.state with
  | .starting => lineTo .hold t
  | .run => lineTo .hold t
  | .hold => t
  | .thread => t
  | .stopping => t
  | _ => s

/-- R131: a hold reason cleared; a set emptied in HOLD sends the line to STARTING. -/
def clearReason (r : HoldReason) (s : State) : State :=
  if s.line.holds.has r then
    let t := { s with line.holds := s.line.holds.put false r }
    if t.line.state = .hold ∧ t.line.holds = Holds.empty then enterLine .starting t else t
  else s

end Sys2Proof.Machine
end

