-- ==== Sys2Proof/Machine/Ceiling.lean ====
section
/-! DEFINITION. The heat ceiling (R122, R123) with the HEAT test (R132), and the wishes of the splice sequence (R150), whose changes
reach the ceiling. -/

namespace Sys2Proof.Machine

/-! ### The ceiling (R122) -/

/-- The class of a spindle's roll. -/
def State.spindleClass (s : State) (i : SpindleId) : Option Nat :=
  match (s.spindle i).tag with
  | some t => (s.findRoll t).map Roll.cls
  | none => none

/-- R122: whether a class is present. -/
def State.classPresent (s : State) (c : Nat) : Bool :=
  s.chest.cells.any (fun x => x.fill.any (fun f => f.cls == c)) ||
  s.runningRoll.any (fun r => r.cls == c) ||
  ((s.wanted || s.turret.seq == .pressing) && s.readyOther.any (fun i => s.spindleClass i == some c))

/-- R122: the set of classes present, in class order. -/
def State.classesPresent (s : State) : List Nat := (List.range 9).filter (fun c => 1 ≤ c && s.classPresent c)

/-- The zone lengths in cells. -/
def zoneLengths (k : Consts) : List Nat := [k.zone1, k.zone2, k.zone3, k.zone4]

/-- R122: the sum over the zones of length times excess; a faulted zone contributes 0. -/
def excessSum (theta : Nat) : List Zone → List Nat → Nat
  | z :: zs, l :: ls => (if z.faulted then 0 else 50 * l * (z.reading - theta)) + excessSum theta zs ls
  | _, _ => 0

/-- R122: ceiling_c; an EMPTY entry, which no class present has, reads as 0 (R34, log entry 28). -/
def State.classCeiling (s : State) (c : Nat) : Nat :=
  12 * excessSum (((s.fibre c).map FibreClass.theta).getD 0) s.chest.zones (zoneLengths s.k) /
    (5 * ((s.fibre c).map FibreClass.dose).getD 0)

/-- The least figure over a list of classes, with the first class that gives it. -/
def leastOver (f : Nat → Nat) : List Nat → Option (Nat × Nat)
  | [] => none
  | c :: cs =>
    match leastOver f cs with
    | some (v, d) => if f c ≤ v then some (f c, c) else some (v, d)
    | none => some (f c, c)

/-- R122: the ceiling and the limiting class. -/
def State.ceilingNow (s : State) : Nat × Option Nat :=
  if s.line.consts.isNone then (240, none)
  else
    match leastOver s.classCeiling s.classesPresent with
    | some (v, c) => (min v 240, some c)
    | none => (240, none)

/-! ### Publication (R123, R132) -/

/-- R132: HEAT raised in RUN below the range minimum, and cleared at the minimum plus 2. -/
def heatTest (s : State) : State :=
  if s.line.state = .run ∧ s.line.ceiling < s.line.range.min then raiseReason .heat s
  else if s.line.range.min + 2 ≤ s.line.ceiling then clearReason .heat s
  else s

/-- R123: the ceiling recomputed and published: the speed follows, HEAT is tested, and a STARTING line tests for RUN. -/
def publish (s : State) : State :=
  testRun (heatTest (recomputeSpeed { s with line.ceiling := s.ceilingNow.1, line.limiting := s.ceilingNow.2 }))

/-! ### Wishes (R150) -/

/-- R150: the point wish judged. -/
def judgePoint (s : State) : State :=
  { s with turret.point :=
      match s.runningRoll with
      | some r => decide (r.remaining ≤ s.k.rs)
      | none => false }

/-- R150: outside PRESSING the sequence is PENDING while a splice is wanted and IDLE while none is. -/
def judgeSeq (s : State) : State :=
  if s.turret.seq = .pressing then s
  else { s with turret.seq := if s.wanted then .pending else .idle }

/-- R150, R151: a change of wishes: the sequence follows, the chest hears of a splice becoming wanted or no longer wanted, and the
trigger test is made. -/
def changeWishes (f : State → State) (s : State) : State :=
  let t := judgeSeq (f s)
  triggerTest (if t.wanted = s.wanted then t else publish t)

/-- R71, R150: the head's early splice wish, reported to the turret. -/
def setHeadWish (b : Bool) (s : State) : State :=
  if s.head.wish = b ∧ s.turret.headWish = b then s
  else changeWishes (fun t => { t with head.wish := b, turret.headWish := b }) s

end Sys2Proof.Machine
end

