-- ==== Sys2Proof/Machine/Web.lean ====
section
/-! DEFINITION. The web map's shared operations: room reports (R106), roll references (R42, R47), opening and closing segments (R89, R90),
the lookup (R91), removal of segments, judgement, exit and delivery of panels (R95 to R100), and the order queue's counting of
an exit (R57, R58) with the end of a retirement (R16). -/

namespace Sys2Proof.Machine

/-! ### Reports of room (R106) and of a candidate (R79) -/

/-- R88: free places of the segment list. -/
def State.freePlaces (s : State) : Nat := Config.segLimit - s.web.segs.length

/-- R106, R68, R70: free places reported; MAP_FULL clears once the places it was raised for are free. -/
def reportPlaces (s : State) : State :=
  let t := headAgain s
  if s.line.holds.mapFull ∧ s.head.mapNeed ≤ s.freePlaces then clearReason .mapFull { t with head.mapNeed := 0 } else t

/-- R106, R70: a freed panel record reported. -/
def reportRecord (s : State) : State := clearReason .panelsFull (headAgain s)

/-- R50: the binding candidate. -/
def State.candidate (s : State) : Option Order :=
  match s.orders.find? (fun o => o.state == .queued && o.cls == .rush) with
  | some o => some o
  | none => s.orders.find? (fun o => o.state == .queued && o.cls == .normal)

/-- R79: a binding candidate reported to the head, which clears NO_ORDER. -/
def reportCandidate (s : State) : State :=
  if s.candidate.isSome then clearReason .noOrder (headAgain s) else s

/-! ### Roll references and the end of a retirement (R42, R47) -/

/-- R47: a roll whose conditions are both met. -/
def Roll.releasable (r : Roll) : Bool := r.state == .spent && r.refs == 0 && r.spindle.isNone

/-- R47: a record leaves the roll table. -/
def removeRoll (tag : Nat) (s : State) : State :=
  { s with turret.rolls := s.turret.rolls.filter (fun r => r.tag != tag) }

/-- R47: a waiting retirement ends once its two conditions are met. -/
def endRollRetirement (tag : Nat) (s : State) : State :=
  match s.findRoll tag with
  | some r => if r.releasable ∧ r.watch.isSome then concludeWatch r.watch done (removeRoll tag s) else s
  | none => s

/-- R42: a segment naming a roll is added. -/
def addRef (tag : Nat) (s : State) : State := s.mapRoll tag (fun r => { r with refs := r.refs + 1 })

/-- R42, R47: a segment naming a roll is removed. -/
def dropRef (tag : Nat) (s : State) : State :=
  endRollRetirement tag (s.mapRoll tag (fun r => { r with refs := r.refs - 1 }))

/-! ### Segments (R88 to R91) -/

/-- R90: the newest segment, when it is open, is closed at the current F and O; one that holds no web and is no PANEL is removed. -/
def closeNewest (s : State) : State :=
  match s.newestSeg with
  | none => s
  | some g =>
    if g.fEnd.isSome then s
    else
      let rest := s.web.segs.dropLast
      if g.oStart = s.head.o ∧ g.kind ≠ .panel then
        reportPlaces (dropRef g.roll { s with web.segs := rest })
      else { s with web.segs := rest ++ [{ g with fEnd := some s.head.f, oEnd := some s.head.o }] }

/-- R89: the merge of a FLAT into a newest FLAT of the same roll. -/
def State.merges (s : State) (kind : SegKind) (roll : Nat) : Bool :=
  kind == .flat && s.newestSeg.any (fun g => g.kind == .flat && g.roll == roll)

/-- R89, step 1: the newest segment is open again. -/
def reopenNewest (s : State) : State :=
  match s.newestSeg with
  | none => s
  | some g => { s with web.segs := s.web.segs.dropLast ++ [{ g with fEnd := none, oEnd := none }] }

/-- R88, R89: where an appended segment starts in O: the end of the segment before it (log entry 15). -/
def State.nextStart (s : State) : Nat :=
  match s.newestSeg with
  | some g => g.oEnd.getD s.head.o
  | none => s.head.o

/-- R89, step 3: the open segment is closed and a new one appended; the roll's count rises first, so that the removal of a zero-length
segment of the same roll ends no retirement (R42, R47). -/
def appendSeg (kind : SegKind) (roll : Nat) (panel : Option Nat) (s : State) : State :=
  let t := closeNewest (addRef roll s)
  { t with
    web.segs := t.web.segs ++ [{ number := t.web.nextSeg, kind := kind, roll := roll, panel := panel, fStart := t.head.f
                                 fEnd := none, oStart := t.nextStart, oEnd := none }]
    web.nextSeg := (t.web.nextSeg + 1) % 65536 }

/-- R89: a segment asked for by the head; none when the list is full. -/
def openSeg (kind : SegKind) (roll : Nat) (panel : Option Nat) (s : State) : Option State :=
  if s.merges kind roll then some (reopenNewest s)
  else if Config.segLimit ≤ s.web.segs.length then none
  else some (appendSeg kind roll panel s)

/-- R91: whether a segment holds a position in O. -/
def Segment.holds (g : Segment) (x : Nat) : Bool :=
  decide (g.oStart ≤ x) && (match g.oEnd with | some e => decide (x < e) | none => true)

/-- R91: the segment at a position in O. -/
def State.segAt (s : State) (x : Nat) : Option Segment := s.web.segs.find? (fun g => g.holds x)

/-- A segment by its number. -/
def State.segNumbered (s : State) (n : Nat) : Option Segment := s.web.segs.find? (fun g => g.number == n)

/-! ### Orders that end (R4, R16, R57, R58, R61) -/

/-- R16: a slot becomes FREE. -/
def freedSlot (x : Slot) : Slot := { freeSlot with prot := x.prot, busy := x.busy }

/-- R4, R16: the use count of a slot falls; at 0 it ends a retirement. -/
def useDown (n : Nat) (s : State) : State :=
  let x := s.slot n
  let t := s.mapSlot n (fun y => { y with uses := y.uses - 1 })
  if x.state = .retiring ∧ x.uses ≤ 1 then concludeWatch x.watch done (t.mapSlot n freedSlot) else t

/-- R4: an order record leaves the queue. -/
def removeOrder (o : Order) (s : State) : State :=
  useDown o.pattern { s with orders := s.orders.filter (fun x => x.tag != o.tag) }

/-- R61: an answer of a notify watch with the order's final counts. -/
def countsAnswer (o : Order) (a : Answer) : Answer := { a with params := a.params ++ [(0x10, o.counts)] }

/-- R61: how a notify watch ends: 1 COMPLETE, 2 CANCELLED. -/
def endAnswer (o : Order) (cancelled : Bool) : Answer := countsAnswer o (doneDetail (if cancelled then 2 else 1))

/-- R58: the completion test. -/
def completeOrder (tag : Nat) (s : State) : State :=
  match s.findOrder tag with
  | some o =>
    if o.m = 0 ∧ o.live = 0 then concludeWatch o.watch (endAnswer o o.cancel) (removeOrder o s) else s
  | none => s

/-- R57, step 3: whether a REJECT earns a remake. -/
def Order.earnsRemake (o : Order) (v : Verdict) (r : Reasons) : Bool :=
  v == .reject && !r.cut && decide (o.remakes < o.remakeLimit) && !o.cancel

/-- R57, steps 1 and 2. -/
def Order.counted (o : Order) (v : Verdict) : Order :=
  match v with
  | .good => { o with live := o.live - 1, good := o.good + 1 }
  | .reject => { o with live := o.live - 1, reject := min 65535 (o.reject + 1) }

/-- R57, step 3: the order after a remake is granted. -/
def Order.remade (o : Order) : Order :=
  { o with m := o.m + 1, remakes := o.remakes + 1, state := if o.state = .awaitingExit then .queued else o.state }

/-- R57: a panel's exit counted against its order. -/
def orderExit (tag : Nat) (v : Verdict) (r : Reasons) (s : State) : State :=
  match s.findOrder tag with
  | none => s
  | some o =>
    let o1 := o.counted v
    if o.earnsRemake v r then
      let o2 := o1.remade
      if o.state = .awaitingExit then
        reportCandidate { s with orders := s.orders.filter (fun x => x.tag != tag) ++ [o2] }
      else s.mapOrder tag (fun _ => o2)
    else completeOrder tag (s.mapOrder tag (fun _ => o1))

/-! ### Judgement, exit and delivery (R97, R98, R100) -/

/-- R97: the reasons of a panel whose segment leaves the chest. -/
def State.reasonsOf (s : State) (p : Panel) : Reasons :=
  let f := s.fibre (((s.findRoll p.roll).map Roll.cls).getD 0)
  let d := (f.map FibreClass.dose).getD 0
  let tmax := (f.map FibreClass.tmax).getD 0
  { underset := match p.minDose with | some x => decide (x < d) | none => true
    scorched := decide (tmax < p.peak), missedFolds := decide (s.k.missTolerance < p.missed)
    cut := p.cut, unregistered := p.unregistered, purged := false }

/-- R105: the reasons of a purged panel. -/
def State.purgedReasons (s : State) (p : Panel) : Reasons :=
  { underset := false, scorched := false, missedFolds := decide (s.k.missTolerance < p.missed)
    cut := p.cut, unregistered := p.unregistered, purged := true }

/-- R97: GOOD when no reason is set. -/
def Reasons.verdict (r : Reasons) : Verdict := if r.bits = 0 then .good else .reject

/-- R100: a panel record leaves the table and the exit order, and the freed record is reported. -/
def freePanel (id : Nat) (s : State) : State :=
  reportRecord
    { s with web.panels := s.web.panels.filter (fun p => p.id != id), web.exits := s.web.exits.filter (fun x => x != id) }

/-- R100: the answer that delivers a panel, the panel record written before the parameter area: DESIGN CHOICE (log entry 9). -/
def State.deliveryAnswer (s : State) (q : Req) (p : Panel) : Answer :=
  { doneParams [(0, le 2 (s.web.exits.filter (fun x => x != p.id)).length)] with
    data := dataBytes q.data (s.panelRecord p), dataFirst := true }

/-- R100: one delivery; whether the write succeeded and the panel is freed. A fault on the parameter area counts as one on the record:
DESIGN CHOICE (log entry 9). -/
def deliver (no : Nat) (id : Nat) (s : State) : State × Bool :=
  match s.entry no, s.findPanel id with
  | some e, some p =>
    match e.req with
    | some (q, _) =>
      let a := s.deliveryAnswer q p
      let ok := s.storeOk (resultWrites q a)
      let t := conclude no a s
      if ok then (freePanel id t, true) else (t, false)
    | none => (s, false)
  | _, _ => (s, false)

/-- R98, R100: a panel offered to the waiting Awaits, oldest first, each faulting write passing it on. -/
def offerTo : List Nat → Nat → State → State
  | [], _, s => s
  | no :: rest, id, s =>
    let (t, ok) := deliver no id { s with web.awaits := s.web.awaits.filter (fun x => x != no) }
    if ok then t else offerTo rest id t

/-- R98: a judged panel becomes EXITED, is reported to the order queue, and is offered for delivery. -/
def exitPanel (p : Panel) (r : Reasons) (s : State) : State :=
  let t := s.mapPanel p.id (fun x => { x with
    state := .exited, exitTime := some s.line.clock, segment := none, verdict := some r.verdict, reasons := r
    purged := x.purged || r.purged })
  let u := orderExit p.order r.verdict r { t with web.exits := t.web.exits ++ [p.id] }
  offerTo u.web.awaits p.id u

/-- R96, R105: the panel of a removed segment is judged by the given reasons and becomes EXITED. -/
def exitSeg (reasons : State → Panel → Reasons) (s : State) (g : Segment) : State :=
  match g.kind, g.panel with
  | .panel, some id =>
    match s.findPanel id with
    | some p => exitPanel p (reasons s p) s
    | none => s
  | _, _ => s

/-- R96: one segment that leaves with a cell: its panel exits, then its roll's count falls. -/
def removedSeg (reasons : State → Panel → Reasons) (s : State) (g : Segment) : State := dropRef g.roll (exitSeg reasons s g)

/-- R96: whether a segment lies wholly below a bound in O. -/
def Segment.below (bound : Nat) (g : Segment) : Bool := g.oEnd.any (fun e => decide (e ≤ bound))

/-- R96: segments are removed from the oldest forward, up to the first that is open or ends above the bound. -/
def removeBelow (bound : Nat) (s : State) : State :=
  let gone := s.web.segs.takeWhile (Segment.below bound)
  let t := gone.foldl (removedSeg State.reasonsOf) { s with web.segs := s.web.segs.dropWhile (Segment.below bound) }
  if gone.isEmpty then t else reportPlaces t

/-- R95: the panel that an occupant names, updated from the leaving cell. -/
def creditPanel (occupant dose peak : Nat) (s : State) : State :=
  match s.segNumbered occupant with
  | some g =>
    match g.kind, g.panel with
    | .panel, some id =>
      s.mapPanel id (fun p => { p with
        minDose := some (match p.minDose with | some d => min d dose | none => dose)
        peak := max p.peak peak })
    | _, _ => s
  | none => s

/-- R95, R96, R120: a cell leaves the chest. -/
def cellExit (c : Cell) (s : State) : State :=
  let t :=
    match c.fill with
    | some f =>
      let u := creditPanel f.first f.dose f.peak s
      if f.second = f.first then u else creditPanel f.second f.dose f.peak u
    | none => s
  match c.lower with
  | some b => removeBelow (b + 500) t
  | none => t

end Sys2Proof.Machine
end

