-- ==== Sys2Proof/Machine/Chest.lean ====
section
/-! DEFINITION. The steam chest's shared operations: crossings (R117, R118, R120), samples (R109 to R113, R119), the purge timers (R114) and
Set Zones (R124). -/

namespace Sys2Proof.Machine

/-! ### Crossings (R117, R118) -/

/-- R118: the class of a filled cell: that of its first occupant's roll. -/
def State.segClass (s : State) (g : Segment) : Nat := ((s.findRoll g.roll).map Roll.cls).getD 0

/-- R118: what the two lookups of a new cell find (the row that cannot occur takes the first, log entry 27). -/
def State.cellFill (s : State) (b : Nat) : Option CellFill :=
  match s.segAt b, s.segAt (b + 499) with
  | some g, some h => some ⟨g.number, h.number, s.segClass g, 0, 0⟩
  | none, some h => some ⟨h.number, h.number, s.segClass h, 0, 0⟩
  | some g, none => some ⟨g.number, g.number, s.segClass g, 0, 0⟩
  | none, none => none

/-- The cell about to leave the chest. -/
def State.lastCell (s : State) : Cell := s.chest.cells.getLast?.getD ⟨none, none⟩

/-- R117, steps 2 to 4: the cells move one place and a new cell 0 is filled. -/
def shiftCells (s : State) : State :=
  { s with
    chest.cells := ⟨some s.chest.entry, s.cellFill s.chest.entry⟩ :: s.chest.cells.dropLast
    chest.entry := s.chest.entry + 500 }

/-- R117: one crossing; when the set of classes present differs after it, the ceiling is recomputed once, at its end (R118, R120;
DESIGN CHOICE, log entry 54). -/
def crossing (s : State) : State :=
  let t := shiftCells (cellExit s.lastCell { s with chest.cells := s.chest.cells.dropLast ++ [⟨none, none⟩] })
  if t.classesPresent = s.classesPresent then t else publish t

/-- R117: crossings one after another. -/
def crossings : Nat → State → State
  | 0, s => s
  | n + 1, s => crossings n (crossing s)

/-- R117: how many crossings an output report reaches. -/
def State.crossingsDue (s : State) : Nat :=
  if s.k.dEntry + s.chest.entry ≤ s.head.o then (s.head.o - (s.k.dEntry + s.chest.entry)) / 500 + 1 else 0

/-- R66, R117: an output report of the head. -/
def reportOutput (len : Nat) (s : State) : State :=
  let t := { s with head.o := s.head.o + len }
  crossings t.crossingsDue t

/-! ### Samples (R109 to R113, R119) -/

/-- R109: a sample classified: the zone's record, and whether the sample is an over-temperature sample. -/
def Zone.classify (z : Zone) (x : Sample) : Zone × Bool :=
  match x with
  | .reading t =>
    if t.toNat ≤ Config.tempMax then
      ({ z with reading := t.toNat, lastGood := t.toNat, faultRun := 0, faulted := false }, false)
    else
      ({ z with reading := Config.tempMax, lastGood := Config.tempMax, faultRun := 0, faulted := false, duty := 0 }, true)
  | .fault =>
    if z.faultRun < 2 then ({ z with reading := z.lastGood, faultRun := z.faultRun + 1 }, false)
    else ({ z with faultRun := 3, faulted := true, duty := 0, ready := false }, false)

/-- R112: the control law. -/
def controlLaw (par : ZoneParams) (target reading duty : Nat) : Nat :=
  if reading + par.band < target then min 1000 (duty + par.stepUp)
  else if target + par.leapAt < reading then duty - par.leapDown
  else if target + par.band < reading then duty - par.stepDown
  else duty

/-- R111, step 3: the duty after a sample. -/
def Zone.regulate (z : Zone) (par : ZoneParams) (overtemp : Bool) : Zone :=
  match z.target with
  | some t =>
    if z.enabled ∧ ¬ z.faulted ∧ ¬ overtemp ∧ ¬ z.purging then { z with duty := controlLaw par t z.reading z.duty } else z
  | none => z

/-- R116: the first cell of a zone, from the zone lengths. -/
def zoneStart (k : Consts) : ZoneId → Nat
  | .z1 => 0
  | .z2 => k.zone1
  | .z3 => k.zone1 + k.zone2
  | .z4 => k.zone1 + k.zone2 + k.zone3

/-- The length of a zone in cells. -/
def zoneCells (k : Consts) : ZoneId → Nat
  | .z1 => k.zone1
  | .z2 => k.zone2
  | .z3 => k.zone3
  | .z4 => k.zone4

/-- R119: one cell credited with an effective reading. -/
def State.creditCell (s : State) (t : Nat) (c : Cell) : Cell :=
  { c with fill := c.fill.map (fun f => { f with
      dose := min Config.doseMax (f.dose + (t - ((s.fibre f.cls).map FibreClass.theta).getD 0))
      peak := max f.peak t }) }

/-- R119: every filled cell of a zone credited with the zone's reading. -/
def creditZone (z : ZoneId) (s : State) : State :=
  let lo := zoneStart s.k z
  let hi := lo + zoneCells s.k z
  { s with chest.cells := s.chest.cells.mapIdx (fun i c =>
      if lo ≤ i ∧ i < hi then s.creditCell (s.zone z).reading c else c) }

/-- R111, step 1: the zone classifies a sample. -/
def classifyZone (z : ZoneId) (x : Sample) (s : State) : State := s.mapZone z (fun y => (y.classify x).1)

/-- R110: whether a sample is an over-temperature sample of a zone. -/
def State.overTemp (s : State) (z : ZoneId) (x : Sample) : Bool := ((s.zone z).classify x).2

/-- R111, steps 2 to 4: a classified sample credited, regulated and judged. -/
def workZone (z : ZoneId) (hot : Bool) (s : State) : State :=
  let u := if (s.zone z).faulted then s else creditZone z s
  u.mapZone z (fun w => (w.regulate u.chest.par hot).judge u.chest.par)

/-- R109, R110: the halt cause a sample raises outside OFF. -/
def State.sampleCause (s : State) (z : ZoneId) (x : Sample) : Option HaltCause :=
  if s.line.state = .off then none
  else if s.overTemp z x then some .overtemp
  else if ((s.zone z).classify x).1.faulted then some .sensor
  else none

/-! ### Purges (R114) -/

/-- R114: the purge interval of a zone. -/
def Zone.interval (z : Zone) : Nat := if 1500 ≤ z.setPoint then 30000 else 60000

/-- R114: whether a purge is due. -/
def Zone.purgeDue (z : Zone) (now : Clock) : Bool :=
  match z.timer with
  | some t => decide (z.interval ≤ elapsed now t)
  | none => false

/-- R114: the start of a purge. -/
def Zone.beginPurge (z : Zone) (now : Clock) : Zone := { z with purging := true, timer := some now }

/-- R114: whether an open drain is to close. -/
def Zone.drainOver (z : Zone) (now : Clock) : Bool :=
  match z.timer with
  | some t => z.purging && decide (Config.purgeTime ≤ elapsed now t)
  | none => false

/-! ### Set Zones (R124) -/

/-- R124: the ten values with their field offsets and their ranges, in the order listed. -/
def zoneValues (a : ZonesArgs) : List (Nat × Nat × Nat × Nat) :=
  [(0x04, a.sp1.toNat, 800, 2200), (0x06, a.sp2.toNat, 800, 2200), (0x08, a.sp3.toNat, 800, 2200),
    (0x0A, a.sp4.toNat, 800, 2200), (0x0C, a.band.toNat, 5, 200), (0x0E, a.drop.toNat, 0, 800),
    (0x10, a.stepUp.toNat, 1, 200), (0x12, a.stepDown.toNat, 1, 200), (0x14, a.leapAt.toNat, 50, 500),
    (0x16, a.leapDown.toNat, 1, 500)]

/-- R124: the first flagged value out of range, from a value index. -/
def zonesFail (flags : Nat) : Nat → List (Nat × Nat × Nat × Nat) → Option Answer
  | _, [] => none
  | i, (off, v, lo, hi) :: rest =>
    if bitSet flags i ∧ ¬ (lo ≤ v ∧ v ≤ hi) then
      some (refusal .badParam ⟨fieldId 0 off, some (if i < 4 then i + 1 else 0), [natVal v, natVal lo, natVal hi]⟩)
    else zonesFail flags (i + 1) rest

/-- A value replaced when its flag is set. -/
def pick (flags i : Nat) (new : U16) (old : Nat) : Nat := if bitSet flags i then new.toNat else old

/-- R124: the shared parameters after Set Zones. -/
def editParams (a : ZonesArgs) (p : ZoneParams) : ZoneParams :=
  let f := a.flags.toNat
  { band := pick f 4 a.band p.band, drop := pick f 5 a.drop p.drop, stepUp := pick f 6 a.stepUp p.stepUp
    stepDown := pick f 7 a.stepDown p.stepDown, leapAt := pick f 8 a.leapAt p.leapAt
    leapDown := pick f 9 a.leapDown p.leapDown }

/-- R124: an enable edit. -/
def editEnable (edits i : Nat) (old : Bool) : Bool :=
  match edits / 4 ^ i % 4 with
  | 1 => true
  | 2 => false
  | 3 => !old
  | _ => old

/-- The set point that Set Zones gives a zone. -/
def spArg (a : ZonesArgs) (i : Nat) : U16 :=
  match i with
  | 0 => a.sp1
  | 1 => a.sp2
  | 2 => a.sp3
  | _ => a.sp4

/-- R124: one zone after Set Zones: its set point and enabled mark, the target and the ready mark, the duty of a zone that became
disabled (R115), and a purge that the new set point makes due (R114). -/
def editZone (a : ZonesArgs) (par : ZoneParams) (st : LineState) (now : Clock) (i : Nat) (z : Zone) : Zone :=
  let sp := pick a.flags.toNat i (spArg a i) z.setPoint
  let en := editEnable a.edits.toNat i z.enabled
  let y := ({ z with setPoint := sp, enabled := en, duty := if z.enabled && !en then 0 else z.duty }).retarget par st
  if sp ≠ z.setPoint ∧ y.purgeDue now then y.beginPurge now else y

/-- R124: Set Zones accepted. -/
def editZones (a : ZonesArgs) (s : State) : State :=
  let par := editParams a s.chest.par
  testRun (reportReady { s with
    chest.par := par
    chest.zones := s.chest.zones.mapIdx (editZone a par s.line.state s.line.clock) })

/-- R124: the four enabled marks. -/
def State.enabledMarks (s : State) : Nat :=
  ((s.chest.zones.mapIdx (fun i z => bit z.enabled i)).sum)

end Sys2Proof.Machine
end

