-- ==== Sys2Proof/Machine/Head.lean ====
section
/-! DEFINITION. The pleating head's shared operations: draws (R66), completion of units and panels (R66, R72), alignment trials (R85, R86),
cuts and halts (R81, R82), binding (R54, R55), registration (R76 to R78), the start tests (R70, R71, R72), and the boundary
(R69) with which an event of the head ends. -/

namespace Sys2Proof.Machine

/-! ### Draws (R66) -/

/-- R76: marks dropped from the head of the list, those behind the blade. -/
def dropMarks (s : State) : State :=
  let off := match s.head.bound with
    | some b => (b.marks.map Marks.offset).getD 0
    | none => 0
  { s with head.marks := s.head.marks.dropWhile (fun p => decide (p + off < s.head.f)) }

/-- R29, R65: the accumulators and the cursor moved to the unit drawn. -/
def moveMeter (s : State) : State :=
  match s.boundPage, s.head.meter with
  | some p, some a =>
    let (n, w, _) := p.unitAt a.faces s.head.cursor
    { s with head.meter := some (a.move n w), head.cursor := p.nextCursor s.head.cursor }
  | _, _ => s

/-- R68: what is left of a finite run after a chunk. -/
def Run.drawn (r : Run) (len : Nat) : Run := { r with remaining := r.remaining.map (fun x => x - len) }

/-- R66, R139: a draw taken: A falls, F rises, the unit is in flight, strokes are issued and marks behind the blade dropped; the
latch is judged (R140) and the trigger test made (R151). -/
def takeDraw (u : DrawUnit) (s : State) : State :=
  let t := { s with
    line.store := s.line.store - u.draw, line.starved := false, line.stall := none
    head.f := s.head.f + u.draw, head.wanted := none, head.flight := some ⟨u, 0, false, none⟩
    head.blade := if u.strokes.isEmpty then s.head.blade else u.strokes }
  let v := if u.fold then moveMeter t else { t with head.run := t.head.run.map (fun r => r.drawn u.draw) }
  triggerTest (judgeLatch (dropMarks v))

/-- R142: starvation begins; no deadline is kept while PRESSING. -/
def starve (s : State) : State :=
  { s with line.starved := true, line.stall := if s.turret.seq = .pressing then none else some s.line.clock }

/-- R66, R142: the wanted draw is taken when the store covers it; else the head is starved, and goes on being starved when it
wanted the same unit before (log entry 20). -/
def settleWanted (old : Option DrawUnit) (s : State) : State :=
  match s.head.wanted with
  | none => withdraw s
  | some u =>
    if u.draw ≤ s.line.store then takeDraw u s
    else if s.line.starved ∧ old = some u then s
    else starve s

/-! ### Chunks of flat runs (R30, R68) -/

/-- R68: the kind of segment a run asks for. -/
def Purpose.segKind : Purpose → SegKind
  | .splice => .splice
  | .trial => .trial
  | _ => .flat

/-- A length shortened so that it ends at a point, when the point lies ahead. -/
def upTo (f : Nat) (point : Option Nat) (len : Nat) : Nat :=
  match point with
  | some p => if f < p then min len (p - f) else len
  | none => len

/-- R68: S_a - guard, while an arrival is pending and no passage has begun. -/
def State.guardPoint (s : State) : Option Nat :=
  match s.head.arrival, s.head.passage with
  | some a, .none => some (a.pos - s.k.guardLen)
  | _, _ => none

/-- R68: the length of a chunk of at most `most` units; `seek` is the start position or the self-framing deadline. -/
def State.chunkFor (s : State) (most : Nat) (r : Run) (seek : Option Nat) : Nat :=
  let a := upTo s.head.f s.guardPoint most
  let b := match r.remaining with
    | some x => min a x
    | none => a
  upTo s.head.f seek b

/-- A chunk with no stroke. -/
def flatUnit (len : Nat) : DrawUnit := { fold := false, draw := len, output := len, strokes := [], trial := none }

/-- R85: a trial chunk at a phase step; one shortened carries no stroke and is no trial. -/
def State.trialUnit (s : State) (step len : Nat) : DrawUnit :=
  if len = Config.trialLen then
    { flatUnit len with strokes := [⟨50 + s.k.overtravel, true, Config.trialLen + step⟩], trial := some step }
  else flatUnit len

/-- R68: before the first chunk of a run, its segment is opened; a full map raises MAP_FULL. Whether the run may be drawn. -/
def openRun (r : Run) (s : State) : State × Bool :=
  if r.opened then (s, true)
  else
    match r.roll.or s.bladeRoll with
    | none => (s, false)
    | some roll =>
      match openSeg r.purpose.segKind roll none s with
      | some t => ({ t with head.run := some { r with opened := true } }, true)
      | none => (raiseReason .mapFull { s with head.mapNeed := 1 }, false)

/-- R68: the next chunk of a run is wanted. -/
def wantChunk (r : Run) (seek : Option Nat) (s : State) : State :=
  if s.bladeRoll.isNone then s
  else
    let (t, ok) := openRun r { s with head.run := some r }
    if ok then { t with head.wanted := some (flatUnit (t.chunkFor Config.chunkLen r seek)) } else t

/-- R85: the next trial is wanted. -/
def wantTrial (r : Run) (a : Align) (s : State) : State :=
  if s.bladeRoll.isNone then s
  else
    let (t, ok) := openRun r { s with head.run := some r }
    if ok then { t with head.wanted := some (t.trialUnit a.step (t.chunkFor Config.trialLen r none)) } else t

/-- R68: the drain length. -/
def State.drainLen (s : State) : Nat := s.k.dEntry + Config.chestLen

/-- R75: the length of a SPLICE run. -/
def State.spliceLen (s : State) : Nat := max 1000 (s.k.overlap + s.k.guardLen)

/-- R68: a GAP run; one of length 0 is no run. -/
def State.gapRun (s : State) : Option Run := if s.k.gap = 0 then none else some (newRun .gap (some s.k.gap))

/-! ### Reports to the order queue (R56) and the panel record (R94) -/

/-- R56: the bound order released: AWAITING_EXIT with no page and m = 0, and the head without an order. -/
def releaseOrder (tag : Nat) (s : State) : State :=
  let t := s.mapOrder tag (fun o => { o with m := 0, state := .awaitingExit, page := none })
  completeOrder tag { t with head.bound := none }

/-- R56, R59: the panel complete report. -/
def orderPanelComplete (tag : Nat) (s : State) : State :=
  let t := s.mapOrder tag (fun o => { o with m := o.m - 1, formed := o.formed + 1 })
  match t.findOrder tag with
  | some o => if o.m = 0 ∨ o.cancel then releaseOrder tag t else t
  | none => t

/-- R56: the panel cut report. -/
def orderPanelCut (tag : Nat) (s : State) : State :=
  match s.findOrder tag with
  | some o => if o.cancel then releaseOrder tag s else s
  | none => s

/-- R29, R65: accumulators and cursor are cleared as the panel leaves FORMING. -/
def leaveForming (s : State) : State :=
  judgeHead { s with head.panel := none, head.meter := none, head.cursor := Cursor.clear }

/-- The order tag of a panel record. -/
def State.panelOrder (s : State) (id : Nat) : Nat := ((s.findPanel id).map Panel.order).getD 0

/-- R72: the panel completes at the output report of its last unit. In STOPPING the drain of R80 takes its place. In THREAD, where a panel
suspended by the case of log entry 33 may complete, no GAP run begins and the THREAD run stands: DESIGN CHOICE (log entry 68). -/
def panelComplete (id : Nat) (s : State) : State :=
  let t := (closeNewest s).mapPanel id (fun p => { p with state := .inPath })
  let u := leaveForming (orderPanelComplete (s.panelOrder id) t)
  match u.line.state with
  | .stopping => u
  | .thread => u
  | _ => { u with head.run := u.gapRun }

/-- R81, step 3: the panel is cut. -/
def cutPanel (id : Nat) (s : State) : State :=
  let t := (closeNewest s).mapPanel id (fun p => { p with state := .inPath, cut := true })
  let u := orderPanelCut (s.panelOrder id) t
  leaveForming { u with head.committed := u.head.f, head.counting := false, head.expected := none }

/-- R81, step 2: a unit in flight is finished at once. -/
def finishFlight (s : State) : State :=
  match s.head.flight with
  | some fl => reportOutput fl.unit.output { s with head.flight := none }
  | none => s

/-- R81, R82: the reports that a unit about to be finished at once still owes (log entry 46). -/
def markLate (s : State) : State :=
  match s.head.flight with
  | some fl =>
    { s with head.late := ⟨s.head.late.travel + (fl.unit.draw - fl.travel),
        s.head.late.pleats + if fl.unit.strokes.isEmpty ∨ fl.results.isSome then 0 else 1⟩ }
  | none => s

/-- R82, R179: a cut that does not come from a halt. It lowers the committed end, so the trigger test is made (R151). -/
def cutByRequest (s : State) : State :=
  match s.head.panel with
  | none => s
  | some id =>
    let t := headAgain (cutPanel id (finishFlight (markLate (withdraw s))))
    triggerTest
      (match t.line.state with
      | .run => { t with head.run := t.gapRun }
      | .stopping => t
      | _ => { t with head.gapOwed := true })

/-! ### Alignment (R84, R85, R86) -/

/-- R84: alignment INVALID with its offset kept. -/
def misalign (s : State) : State := { s with head.aligned := false }

/-- R85, R86: the trials end: the TRIAL segment is closed, a result still to come is discarded, and in THREAD the head returns to
a THREAD run. -/
def endAlign (s : State) : State :=
  let t := if s.newestSeg.any (fun g => g.kind == .trial) then closeNewest s else s
  let u := if t.head.wanted.isSome ∧ t.head.passage = .none then withdraw t else t
  let v := judgeHead { u with
    head.align := none
    head.flight := u.head.flight.map (fun f => { f with unit := { f.unit with trial := none } }) }
  if v.line.state = .thread then headAgain (placeRun (some (newRun .thread none)) v)
  else { v with head.run := keepRun [.gap, .drain, .guard, .splice] v.head.run }

/-- Complete the Align Blade that runs and end its trials. -/
def finishAlign (a : Align) (ans : Answer) (s : State) : State :=
  endAlign (match a.entry with | some no => conclude no ans s | none => s)

/-- R85: what the result of a trial at a step brings. -/
def trialOutcome (step : Nat) (result : Crease) (s : State) : State :=
  match s.head.align with
  | none => s
  | some a =>
    let late := decide (result = .late)
    let b := { a with made := a.made + 1, last := some result }
    let t := { s with head.align := some b }
    if late && step != 0 then
      finishAlign b (doneParams [(0, [b8 step]), (2, le 2 b.made)])
        { t with head.aligned := true, head.offset := step }
    else if late || step == 255 then
      finishAlign b (refusal .alignRange (senseVals [natVal step, natVal (trialCode late)])) t
    else { t with head.align := some { b with step := step + 1 } }

/-! ### Completion of units (R66, R67) -/

/-- R66: the unit in flight completes: O rises, the output is reported, and a panel at its last unit completes. The output comes first, so
that a panel it brings out is judged and counted (R57) before the panel at its last unit is counted complete (R56): a REJECT that earns its
remake by the report that completes the order's last panel leaves the order FORMING: DESIGN CHOICE (log entry 69). -/
def completeUnit (fl : Flight) (s : State) : State :=
  let t := reportOutput fl.unit.output (headAgain { s with head.flight := none })
  if fl.unit.fold then
    match t.head.panel with
    | some id => if t.head.cursor.part = .atEnd then panelComplete id t else t
    | none => t
  else
    match fl.unit.trial with
    | some step => trialOutcome step ((fl.results.getD []).headD .absent) t
    | none => t

/-- R66: the unit in flight completes when its draw has ended and its pleat-done has come, or it has no strokes. -/
def completeIfDone (s : State) : State :=
  match s.head.flight with
  | some fl => if fl.drawEnd ∧ (fl.unit.strokes.isEmpty ∨ fl.results.isSome) then completeUnit fl s else s
  | none => s

/-- R66: the metering encoder's travel counted for the unit in flight; the report that reaches the draw length ends the draw. -/
def countTravel (n : Nat) (s : State) : State :=
  match s.head.flight with
  | none => s
  | some fl =>
    let v := min fl.unit.draw (fl.travel + n)
    completeIfDone { s with head.flight := some { fl with
      travel := v, drawEnd := fl.drawEnd || decide (fl.unit.draw ≤ fl.travel + n) } }

/-- R66: a metering advance. While a unit that a cut finished still owes travel, the report is its own and is discarded (R81, R82; log
entry 46). -/
def meterTravel (n : Nat) (s : State) : State :=
  if s.head.late.travel = 0 then countTravel n s
  else { s with head.late := { s.head.late with travel := s.head.late.travel - n } }

/-- R67: a pleat-done read to the unit's stroke count, missing results ABSENT. -/
def readResults (strokes : Nat) (rs : List Crease) : List Crease :=
  (rs ++ List.replicate strokes Crease.absent).take strokes

/-- R67: the absent run after results, and whether it reached 2. -/
def absentRun : Nat → List Crease → Nat × Bool
  | n, [] => (n, false)
  | n, c :: cs =>
    if c = .present then absentRun 0 cs
    else
      let (m, hit) := absentRun (min 2 (n + 1)) cs
      (m, hit || n == 1)

/-- R67, R94: crease results of a fold unit reported to the web map, and the absent run counted. -/
def countFolds (rs : List Crease) (s : State) : State :=
  match s.head.panel with
  | none => s
  | some id =>
    let ok := rs.countP (fun c => c == .present)
    let t := s.mapPanel id (fun p => { p with formed := p.formed + ok, missed := p.missed + (rs.length - ok) })
    { t with head.absent := (absentRun s.head.absent rs).1 }

/-! ### A halt at the head (R81) -/

/-- R81, R86: the head as the line enters HALT; no report of a unit finished before is waited for any more (log entry 46). -/
def haltHead (s : State) : State :=
  let t := finishFlight { withdraw s with head.blade := [], head.late := ⟨0, 0⟩ }
  let u := match t.head.panel with
    | some id => { cutPanel id t with head.gapOwed := true }
    | none => t
  let v := match u.head.align with
    | some a => finishAlign a (haltedAnswer u.line.cause) u
    | none => u
  judgeHead { v with
    head.run := keepRun [.guard, .splice] v.head.run, head.suspended := none, head.drainSpent := false
    head.aligned := false }

/-! ### Binding (R54, R55) -/

/-- R55: a candidate that fails a test leaves the queue, its notify watch completing with the code of the failure. -/
def failBinding (o : Order) (a : Answer) (s : State) : State :=
  concludeWatch o.watch (countsAnswer o a) (removeOrder o s)

/-- R27, R54: the tests of an order against a page; none when it passes. -/
def State.orderTest (s : State) (p : Page) (o : Order) : Option Answer :=
  match p.gradeCheck o.size with
  | some f => some (refusal .gradeRange (gradeSense f o.size (some o.tag)))
  | none =>
    let m := p.measure o.size s.runningK
    if ¬ m.ok then some (refusal .fit { fitSense m with key := some o.tag })
    else
      match o.marks with
      | some r =>
        if r.fits m.t s.k.gap then none
        else some (refusal .fit ⟨0, some o.tag, [natVal m.t, natVal s.k.gap, natVal (r.mult * r.rep)]⟩)
      | none => none

/-- R13: the library takes a pending flip and hands over the live page. -/
def flipSlot (n : Nat) (s : State) : State := s.mapSlot n (fun x => if x.flip then x.flipped else x)

/-- R54, step 5: the order becomes FORMING and the head has it, its registration SEEKING (R77) and its drain over (R79). -/
def bindOrder (o : Order) (letter : Letter) (s : State) : State :=
  let t := s.mapOrder o.tag (fun x => { x with state := .forming, page := some letter })
  { t with
    head.bound := some ⟨o.tag, o.pattern, o.size, letter, o.marks⟩
    head.counting := false, head.expected := none, head.drainSpent := false
    head.run := keepRun [.gap, .guard, .splice] t.head.run }

/-- R54, R55: the queue asked for an order: candidates in turn until one binds or none remains. -/
def askOrder : Nat → State → State
  | 0, s => s
  | n + 1, s =>
    match s.candidate with
    | none => s
    | some o =>
      let t := flipSlot o.pattern s
      let x := t.slot o.pattern
      let letter := x.live.getD .a
      match x.page letter with
      | none => askOrder n (failBinding o (refusal .noRecord Sense.none) t)
      | some p =>
        match t.orderTest p o with
        | some a => askOrder n (failBinding o a t)
        | none => bindOrder o letter t

/-! ### Registration (R77, R78) -/

/-- R78: whether the mark at an index of the list counts N-th or later after the last start mark (log entry 19). -/
def State.countedMark (s : State) (n i : Nat) : Bool :=
  decide ((n : Int) ≤ (s.head.counted : Int) - ((s.head.marks.length : Int) - 1 - (i : Int)))

/-- R77, R78: the usable mark. -/
def State.usableMark (s : State) (r : Marks) : Option Nat :=
  ((s.head.marks.zipIdx.find? (fun m =>
    decide (s.head.f ≤ m.1 + r.offset) && (!s.head.counting || s.countedMark r.mult m.2))).map Prod.fst)

/-- R77, R78: the expected start E. -/
def State.expectedStart (s : State) (r : Marks) : Int :=
  if s.head.counting then s.head.lastMark.getD 0 + (r.offset : Int) + (r.mult : Int) * (r.rep : Int)
  else ((s.head.expected.getD s.head.f : Nat) : Int)

/-- R78: the self-framing deadline. -/
def State.frameDeadline (s : State) (r : Marks) : Int := s.expectedStart r + ((3 * r.mult * r.rep / 2 : Nat) : Int)

/-- The fourth start test (R70): start on a mark, start self-framed, or seek a point. -/
inductive Framing where
  | start (self : Bool)
  | seek (point : Option Nat)
  deriving DecidableEq, Repr

/-- R77, R78: the fourth start test of a MARKED order; a chunk that seeks ends at the nearer of the start position and the self-framing
deadline ahead (R68). -/
def State.framing (s : State) (r : Marks) : Framing :=
  let due := s.frameDeadline r
  match s.usableMark r with
  | some p =>
    if p + r.offset = s.head.f then .start false
    else .seek (some (if (s.head.f : Int) < due then min (p + r.offset) due.toNat else p + r.offset))
  | none => if due ≤ (s.head.f : Int) then .start true else .seek (some due.toNat)

/-! ### The panel start (R70, R71, R72) -/

/-- R72: the k of the class of the blade roll. -/
def State.bladeK (s : State) : Nat :=
  match s.bladeRoll with
  | some t => s.allowance (((s.findRoll t).map Roll.cls).getD 0)
  | none => 0

/-- R71: the horizon test. -/
def State.horizon (s : State) (t : Nat) : Bool :=
  match s.head.arrival with
  | some a => decide (s.head.f + t + s.k.guardLen ≤ a.pos)
  | none =>
    decide (t + s.k.guardLen + s.k.rs ≤ s.k.p + s.line.store + ((s.runningRoll.map Roll.remaining).getD 0))

/-- R93: the next panel id, past any id that a record present holds. -/
def freeId (taken : List Nat) : Nat → Nat → Nat
  | 0, n => n
  | fuel + 1, n => if n ∈ taken then freeId taken fuel (if n = 65535 then 1 else n + 1) else n

/-- R93: the counter after an id is taken. -/
def State.idAfter (s : State) (id : Nat) : Nat :=
  freeId (id :: s.web.panels.map Panel.id) 66 (if id = 65535 then 1 else id + 1)

/-- R72, R93: the panel record of a start. -/
def State.startRecord (s : State) (b : Bound) (p : Page) (a : Meter) (roll : Nat) (self : Bool) : Panel :=
  { id := s.web.nextPanel, state := .forming, order := b.tag, pattern := b.pattern, page := b.letter, size := b.size
    roll := roll, segment := some s.web.nextSeg, k := a.k, takeup := a.takeup, out := a.out, strokes := p.strokeCount
    formed := 0, missed := 0, minDose := none, peak := 0, started := s.line.clock, exitTime := none
    unregistered := self, cut := false, purged := false, verdict := none
    reasons := ⟨false, false, false, false, false, false⟩ }

/-- R72: a panel starts. -/
def startPanel (b : Bound) (p : Page) (roll : Nat) (self : Bool) (s : State) : State :=
  let a := p.meter b.letter b.size s.bladeK
  let id := s.web.nextPanel
  let t := judgeHead { s with
    web.panels := s.web.panels ++ [s.startRecord b p a roll self], web.nextPanel := s.idAfter id
    head.meter := some a, head.committed := s.head.f + a.takeup, head.panel := some id, head.cursor := p.firstCursor
    head.absent := 0, head.run := none }
  triggerTest ((appendSeg .panel roll (some id) t).mapOrder b.tag (fun o => { o with live := o.live + 1 }))

/-- R77, R78: the registration after a MARKED start. -/
def registered (r : Marks) (s : State) : State :=
  { s with head.lastMark := some ((s.head.f : Int) - (r.offset : Int)), head.counted := 0, head.counting := true
           head.expected := none }

/-- R66: the next fold unit of the panel is wanted. -/
def wantFold (s : State) : State :=
  match s.boundPage, s.head.meter with
  | some p, some a =>
    { s with head.wanted := some (p.foldUnit a s.head.cursor s.k.overtravel s.head.offset) }
  | _, _ => s

/-- A run of a purpose: the one in progress, or a new one. -/
def State.runOf (s : State) (p : Purpose) : Run :=
  match s.head.run with
  | some r => if r.purpose = p then r else newRun p none
  | none => newRun p none

/-- R70, tests 3 and 4, and the start (R72). -/
def startOrSeek (b : Bound) (p : Page) (roll : Nat) (s : State) : State :=
  match b.marks with
  | none => wantFold (startPanel b p roll false s)
  | some r =>
    let t := if s.head.counting then s else { s with head.expected := some (s.head.expected.getD s.head.f) }
    match t.framing r with
    | .start self => wantFold (registered r (startPanel b p roll self t))
    | .seek point => wantChunk (t.runOf .seek) point t

/-- R70: the start tests. -/
def startTests (b : Bound) (s : State) : State :=
  match s.bladeRoll, s.boundPage with
  | some roll, some p =>
    if Config.panelLimit ≤ s.web.panels.length then raiseReason .panelsFull s
    else if s.freePlaces < 2 then raiseReason .mapFull { s with head.mapNeed := 2 }
    else
      let fits := s.horizon (p.measure b.size s.bladeK).t
      let t := setHeadWish (!fits) s
      if t.line.state ≠ .run then t
      else if fits then startOrSeek b p roll t
      else wantChunk (t.runOf .wait) none t
  | _, _ => s

/-! ### The boundary (R69) -/

/-- R69, step 1, and R75: the passage begins. -/
def beginPassage (s : State) : State :=
  match s.head.arrival with
  | some a =>
    if s.head.passage = .none ∧ s.head.f + s.k.guardLen = a.pos then
      { s with head.passage := .guard, head.suspended := s.head.run
               head.run := some (newRun .guard (some s.k.guardLen)) }
    else s
  | none => s

/-- R75, stage 2: at the end of the GUARD run the SPLICE stage begins, and the arrival is cleared. -/
def endGuard (s : State) : State :=
  match s.head.run with
  | some r =>
    if r.purpose = .guard ∧ r.remaining = some 0 then
      triggerTest
        { s with head.passage := .splice, head.arrival := none
                 head.run := some { newRun .splice (some s.spliceLen) with roll := s.head.arrival.map Arrival.roll } }
    else s
  | none => s

/-- R75: at the end of the SPLICE run the passage is over and the suspended run resumes under the new blade roll. -/
def endSplice (s : State) : State :=
  match s.head.run with
  | some r =>
    if r.purpose = .splice ∧ r.remaining = some 0 then
      { s with head.passage := .none, head.suspended := none
               head.run := s.head.suspended.map (fun x => { x with opened := false }) }
    else s
  | none => s

/-- R69, step 2: a GAP run that has run its length ends; in RUN an owed gap begins (R179). -/
def gapStep (s : State) : State :=
  let t := match s.head.run with
    | some r => if r.purpose = .gap ∧ r.remaining = some 0 then { s with head.run := none } else s
    | none => s
  if t.head.gapOwed ∧ t.line.state = .run ∧ t.head.passage = .none then
    { t with head.gapOwed := false, head.run := t.gapRun }
  else t

/-- R80: the drain of STOPPING; at its end the line enters STANDBY and every stop watch completes (R134). -/
def stopDrain (s : State) : State :=
  match s.head.run with
  | some r =>
    if r.purpose = .drain then
      if r.remaining = some 0 then
        let t := lineTo .standby { s with head.run := none }
        concludeAll t.line.stopWatches done { t with line.stopWatches := [] }
      else wantChunk r none s
    else wantChunk (newRun .drain (some s.drainLen)) none { s with head.gapOwed := false }
  | none => wantChunk (newRun .drain (some s.drainLen)) none { s with head.gapOwed := false }

/-- R79: the no-order drain. -/
def orderDrain (s : State) : State :=
  let none' := fun (t : State) =>
    if t.head.drainSpent then raiseReason .noOrder { t with head.run := none }
    else wantChunk (newRun .drain (some t.drainLen)) none t
  match s.head.run with
  | some r =>
    if r.purpose = .drain then
      if r.remaining = some 0 then raiseReason .noOrder { s with head.run := none, head.drainSpent := true }
      else wantChunk r none s
    else none' s
  | none => none' s

/-- R69, steps 4 and 5. -/
def orderStep (s : State) : State :=
  let t := match s.head.bound with
    | none => askOrder s.orders.length s
    | some _ => s
  match t.head.bound with
  | some b => startTests b t
  | none => orderDrain t

/-- R69, step 3: THREAD, with the trials of an Align Blade (R85). -/
def threadStep (s : State) : State :=
  match s.head.align with
  | some a => wantTrial (s.runOf .trial) a s
  | none => wantChunk (s.runOf .thread) none s

/-- R69: the actions of a boundary, in order, of which the first that applies is taken; a run of a passage that has run its length ends
first (R75), so that a second arrival due at that very boundary begins its passage. A standing MAP_FULL leaves the head
drawing nothing (R131, log entry 14). -/
def boundary (s : State) : State :=
  if s.line.holds.mapFull then s
  else
    let t := gapStep (beginPassage (endSplice (endGuard s)))
    match t.head.run with
    | some r =>
      if r.purpose = .guard ∨ r.purpose = .splice ∨ r.purpose = .gap then wantChunk r none t
      else
        match t.line.state with
        | .thread => threadStep t
        | .stopping => stopDrain t
        | _ => orderStep t
    | none =>
      match t.line.state with
      | .thread => threadStep t
      | .stopping => stopDrain t
      | _ => orderStep t

/-- The head's part at the end of an event: the next draw of a FORMING panel, or the actions of a boundary (R66, R69). -/
def headGo (s : State) : State :=
  let old := s.head.wanted
  let t := { s with head.wanted := none }
  match s.head.state with
  | .forming => settleWanted old (wantFold t)
  | .flat => settleWanted old (boundary t)
  | .aligning => settleWanted old (boundary t)
  | .retracted => s

/-- The end of an event: the head goes on when a report or a change calls on it, and a draw that the store covers is taken. -/
def settle (s : State) : State :=
  if s.head.flight.isSome then { s with head.again := false }
  else if s.head.again then { headGo s with head.again := false }
  else
    match s.head.wanted with
    | some u => if u.draw ≤ s.line.store then takeDraw u s else s
    | none => s

end Sys2Proof.Machine
end

