-- ==== Sys2Proof/Machine/Library.lean ====
section
/-! DEFINITION. The decisions of the pattern requests (R6 to R18, R32, R33) and the end of a page fetch. -/

namespace Sys2Proof.Machine

/-- The number of the pattern a key names. -/
def patternOf (q : Req) : Nat := q.key.toNat

/-- BAD_PARAM for the key, with the value found also where the rule names no value: DESIGN CHOICE (log entry 64). -/
def badKey (q : Req) : Answer := badField keyField [natVal q.key.toNat]

/-- R32, R36, R43, R44: NO_RECORD for a class whose entry is EMPTY. The sense data names the class by its number as the key: DESIGN CHOICE
(log entry 66). -/
def emptyClass (c : Nat) : Answer := refusal .noRecord ⟨0, some c, []⟩

/-- R50: the queue sequence. -/
def State.queueSeq (s : State) : List Order :=
  let rest := s.orders.filter (fun o => o.state != .forming)
  s.orders.filter (fun o => o.state == .forming) ++ rest.filter (fun o => o.cls == .rush) ++
    rest.filter (fun o => o.cls == .normal)

/-! ### Define Pattern and Amend Pattern (R7, R10, R11, R12) -/

/-- R6, R7: an assembly buffer is obtained and the slot becomes busy; with both in use the request waits. With both free buffer A is
taken: DESIGN CHOICE (log entry 57). -/
def beginFetch (no n : Nat) (amend : Bool) (s : State) : State :=
  let t := s.mapSlot n (fun x => { x with busy := true })
  if s.lib.bufA.isNone then holdRunning no { t with lib.bufA := some ⟨no, n, amend⟩ }
  else if s.lib.bufB.isNone then holdRunning no { t with lib.bufB := some ⟨no, n, amend⟩ }
  else holdWaiting no .buffers s

/-- R10: Define Pattern decided. -/
def decideDefine (no : Nat) (q : Req) (s : State) : State :=
  let n := patternOf q
  let x := s.slot n
  if 47 < n then conclude no (badKey q) s
  else if n = 0 then conclude no (refusal .protect Sense.none) s
  else if x.busy then holdWaiting no (.slot n) s
  else if x.state ≠ .free then conclude no (refusal .duplicate (senseVals [natVal x.state.code, natVal x.uses])) s
  else beginFetch no n false s

/-- R11: Amend Pattern decided. -/
def decideAmend (no : Nat) (q : Req) (s : State) : State :=
  let n := patternOf q
  let x := s.slot n
  if 47 < n then conclude no (badKey q) s
  else if n = 0 then conclude no (refusal .protect Sense.none) s
  else if x.busy then holdWaiting no (.slot n) s
  else if x.state = .free then conclude no (refusal .noRecord Sense.none) s
  else beginFetch no n true s

/-- R7, steps 1 to 5: a page read and validated. A total below 16 is given as the value of SEGMENT_LIST, and a group count out of range as
that of BAD_PARAM, where the rule names none: DESIGN CHOICE (log entry 64). -/
def State.fetchPage (s : State) (d : DataArea) : Except Answer Page :=
  let total := dataTotal d
  if total < 16 then .error (refusal .segmentList (senseField lenField [natVal total]))
  else
    match s.load (dataAddrs d 16) with
    | none => .error (refusal .busFault Sense.none)
    | some hd =>
      let g := (byteAt hd 0x0E).toNat
      if ¬ (1 ≤ g ∧ g ≤ 32) then .error (badField (fieldId 2 0x0E) [natVal g])
      else if total ≠ 16 + 8 * g then
        .error (refusal .segmentList (senseField lenField [natVal total, natVal (16 + 8 * g)]))
      else
        match s.load (dataAddrs d (16 + 8 * g)) with
        | none => .error (refusal .busFault Sense.none)
        | some bs => validatePage bs g

/-- R10: a slot defined with a page. -/
def definedSlot (x : Slot) (p : Page) : Slot :=
  { x with state := .active, pageA := some p, pageB := some p, live := some .a, flip := false, uses := 0, watch := none }

/-- R11: the first order present that a page fails, in queue sequence. The sense record holds the values of R11 and then the kind that R20
adds (log entry 10). -/
def amendFail (p : Page) : List Order → Option Answer
  | [] => none
  | o :: os =>
    match p.gradeCheck o.size with
    | some f => some (refusal .gradeRange ⟨0, some o.tag, [natVal o.size, natVal f.index, f.face, f.bound,
      natVal f.group.kind.code]⟩)
    | none => amendFail p os

/-- R12: the alternate page written, and the flip taken or left pending. -/
def amendedSlot (x : Slot) (p : Page) (forming : Bool) : Slot :=
  let y := match x.live.getD .a with
    | .a => { x with pageB := some p }
    | .b => { x with pageA := some p }
  if forming then { y with flip := true } else y.flipped

/-- R12: the detail of an Amend: SUPERSEDED, TAKEN, PENDING. -/
def amendDetail (flip forming : Bool) : Nat := bit flip 0 + bit (!forming) 1 + bit forming 2

/-- R12: whether an order of a pattern is FORMING. -/
def State.formingOf (s : State) (n : Nat) : Bool := s.orders.any (fun o => o.pattern == n && o.state == .forming)

/-- R10, R11, R12: what a fetched page does at its slot, and the request's answer. An Amend whose slot became FREE during the fetch
is refused as NO_RECORD: DESIGN CHOICE (log entry 31). -/
def fetchOutcome (f : Fetch) (r : Except Answer Page) (s : State) : State × Answer :=
  match r with
  | .error a => (s, a)
  | .ok p =>
    if f.amend then
      let x := s.slot f.slot
      if x.state = .free then (s, refusal .noRecord Sense.none)
      else
        match amendFail p (s.queueSeq.filter (fun o => o.pattern == f.slot)) with
        | some a => (s, a)
        | none =>
          (s.mapSlot f.slot (fun y => amendedSlot y p (s.formingOf f.slot)),
            doneDetail (amendDetail x.flip (s.formingOf f.slot)))
    else (s.mapSlot f.slot (fun y => definedSlot y p), done)

/-- The fetch of an assembly buffer. -/
def State.buffer (s : State) : BufferId → Option Fetch
  | .a => s.lib.bufA
  | .b => s.lib.bufB

/-- R6, R7: a buffer is freed and the busy mark of its slot clears. -/
def releaseFetch (buf : BufferId) (s : State) : State :=
  match s.buffer buf with
  | none => s
  | some f =>
    let t := s.mapSlot f.slot (fun x => { x with busy := false })
    match buf with
    | .a => { t with lib.bufA := none }
    | .b => { t with lib.bufB := none }

/-- R7: the fetch of a buffer ends: the page is decided, the request completes and the buffer and the slot are free again. -/
def endFetch (buf : BufferId) (s : State) : State :=
  match s.buffer buf with
  | none => s
  | some f =>
    match s.entry f.entry with
    | none => s
    | some e =>
      match e.req with
      | none => s
      | some (q, _) =>
        let o := fetchOutcome f (s.fetchPage q.data) s
        conclude f.entry o.2 (releaseFetch buf o.1)

/-! ### Read Pattern and Retire Pattern (R14, R15) -/

/-- R14: the slot summary. -/
def Slot.summary (x : Slot) : List Byte :=
  [b8 x.state.code, b8 (bit x.prot 0 + bit x.flip 1 + bit x.watch.isSome 2), b8 (letterCode x.live), b8 x.uses,
    b8 ((x.pageA.map (fun p => p.groups.length)).getD 0), b8 ((x.pageB.map (fun p => p.groups.length)).getD 0)]

/-- R14: the page Read Pattern returns. -/
def Slot.readPage (x : Slot) (alternate : Bool) : Option Page :=
  let live := x.live.getD .a
  x.page (if alternate then live.other else live)

/-- R14: Read Pattern decided. -/
def decideReadPattern (no : Nat) (q : Req) (alternate : Bool) (s : State) : State :=
  let n := patternOf q
  let x := s.slot n
  if 47 < n then conclude no (badKey q) s
  else if x.busy then holdWaiting no (.slot n) s
  else if x.state = .free then conclude no (refusal .noRecord Sense.none) s
  else
    let bs := ((x.readPage alternate).map Page.bytes).getD []
    conclude no { doneParams [(0, x.summary)] with data := dataBytes q.data bs, residual := residualBytes q.data bs } s

/-- R15: Retire Pattern decided. -/
def decideRetirePattern (no : Nat) (q : Req) (s : State) : State :=
  let n := patternOf q
  let x := s.slot n
  if 47 < n then conclude no (badKey q) s
  else if n = 0 then conclude no (refusal .protect Sense.none) s
  else if x.busy then holdWaiting no (.slot n) s
  else
    match x.state with
    | .free => conclude no (refusal .noRecord Sense.none) s
    | .active =>
      if x.uses = 0 then conclude no done (s.mapSlot n freedSlot)
      else holdRunning no (s.mapSlot n (fun y => { y with state := .retiring, watch := some no }))
    | .retiring =>
      if x.watch.isSome then conclude no (refusal .wrongState (senseVals [natVal x.uses])) s
      else holdRunning no (s.mapSlot n (fun y => { y with watch := some no }))

/-! ### Measure Pattern (R32, R33) -/

/-- R33: the results of a measurement, from 02h of the parameter area. -/
def measureResults (x : Slot) (p : Page) (m : Measured) : List Byte :=
  [b8 x.nextLetter.code, b8 (flagNat x.flip)] ++ le 2 m.k ++ [b8 (p.span.headD 0), b8 (p.span.getLastD 0)] ++
    le 4 p.units ++ le 4 p.strokeCount ++ le 4 m.n ++ le 4 m.w ++ le 4 m.t ++ le 4 m.out

/-- R33: the answer of a measurement of the next page. -/
def measureAnswer (x : Slot) (p : Page) (size k : Nat) : Answer :=
  match p.gradeCheck size with
  | some f => refusal .gradeRange (gradeSense f size none)
  | none =>
    let m := p.measure size k
    let out := [(0x02, measureResults x p m)]
    if m.ok then doneParams out else { refusal .fit (fitSense m) with params := out }

/-- R32: Measure Pattern decided. Where step 1 finds more than one of its three out of range, the pattern number is named before the size and
the size before the class: DESIGN CHOICE (log entry 70). -/
def decideMeasure (no : Nat) (q : Req) (a : MeasureArgs) (s : State) : State :=
  let n := patternOf q
  let size := a.size.toNat
  let cls := a.cls.toNat
  let x := s.slot n
  if 47 < n then conclude no (badKey q) s
  else if 11 < size then conclude no (badField (fieldId 0 0x00) [natVal size]) s
  else if 8 < cls then conclude no (badField (fieldId 0 0x01) [natVal cls]) s
  else if x.busy then holdWaiting no (.slot n) s
  else
    match x.state, x.nextPage with
    | .free, _ => conclude no (refusal .noRecord Sense.none) s
    | _, none => conclude no (refusal .noRecord Sense.none) s
    | _, some p =>
      if cls ≠ 0 ∧ (s.fibre cls).isNone then conclude no (emptyClass cls) s
      else conclude no (measureAnswer x p size (if cls = 0 then 0 else s.allowance cls)) s

end Sys2Proof.Machine
end

