-- ==== Sys2Proof/Machine/Rolls.lean ====
section
/-! DEFINITION. The decisions of the fibre class and roll requests (R35, R36, R38, R43 to R48), Mount Roll (R147) and Splice Now (R158). -/

namespace Sys2Proof.Machine

/-! ### Fibre classes (R35, R36, R38) -/

/-- A range check of a parameter, with the value found and the bound it broke (R35). The class numbers of R36, R38, R43 and R44 are
refused with these values too: DESIGN CHOICE (log entry 64). -/
def paramRange (offset v lo hi : Nat) : Option Answer :=
  if v < lo then some (badField (fieldId 0 offset) [natVal v, natVal lo])
  else if hi < v then some (badField (fieldId 0 offset) [natVal v, natVal hi])
  else none

/-- R35: the checks of Set Fibre Class, in order. -/
def classFail (a : ClassArgs) : Option Answer :=
  [paramRange 0x00 a.cls.toNat 1 8, paramRange 0x02 a.theta.toNat 600 2000,
    paramRange 0x04 a.tmax.toNat (a.theta.toNat + 100) 2400, paramRange 0x06 a.dose.toNat 40 16777215,
    paramRange 0x0A a.k.toNat 0 800].findSome? id

/-- Change an entry of the fibre class table. -/
def State.setClass (s : State) (c : Nat) (e : Option FibreClass) : State :=
  { s with turret.classes := s.turret.classes.set (c - 1) e }

/-- R35, R37: Set Fibre Class with the clear flag clear. -/
def decideSetClass (no : Nat) (a : ClassArgs) (s : State) : State :=
  match classFail a with
  | some r => conclude no r s
  | none =>
    let c := a.cls.toNat
    let e : FibreClass := ⟨a.theta.toNat, a.tmax.toNat, a.dose.toNat, a.k.toNat⟩
    conclude no (doneDetail (if (s.fibre c).isNone then 1 else 2)) (publish (s.setClass c (some e)))

/-- The rolls that name a class, in registration order. -/
def State.rollsOf (s : State) (c : Nat) : List Roll := s.turret.rolls.filter (fun r => r.cls == c)

/-- R36: Set Fibre Class with the clear flag set. The key of an IN_USE is the tag it gives: DESIGN CHOICE (log entry 66). -/
def decideClearClass (no : Nat) (cls : U8) (s : State) : State :=
  let c := cls.toNat
  match paramRange 0x00 c 1 8, s.rollsOf c with
  | some r, _ => conclude no r s
  | none, rs =>
    if (s.fibre c).isNone then conclude no (emptyClass c) s
    else
      match rs with
      | r :: _ => conclude no (refusal .inUse ⟨0, some r.tag, [natVal rs.length, natVal r.tag]⟩) s
      | [] => conclude no done (s.setClass c none)

/-- R38: the results of Read Fibre Class. -/
def State.classResults (s : State) (c : Nat) : List (Nat × List Byte) :=
  let e := (s.fibre c).getD ⟨0, 0, 0, 0⟩
  [(0x04, [b8 (flagNat (s.fibre c).isSome)]), (0x06, le 2 e.theta ++ le 2 e.tmax), (0x0C, le 4 e.dose ++ le 2 e.k ++
    [b8 (s.rollsOf c).length, b8 (flagNat (s.runningRoll.any (fun r => r.cls == c)))])]

/-- R38: Read Fibre Class decided. -/
def decideReadClass (no : Nat) (cls : U8) (s : State) : State :=
  match paramRange 0x00 cls.toNat 1 8 with
  | some r => conclude no r s
  | none => conclude no (doneParams (s.classResults cls.toNat)) s

/-! ### Register, Amend, Read and Retire Roll (R43 to R48) -/

/-- A declared length out of its bounds (R43, R44). -/
def State.badLength (s : State) (len least : Nat) : Bool := decide (len < max least (s.k.rs + 1)) || decide (20000000 < len)

/-- R43: Register Roll decided. -/
def decideRegister (no : Nat) (q : Req) (a : RollArgs) (s : State) : State :=
  let tag := q.key.toNat
  let len := a.len.toNat
  let c := a.cls.toNat
  if tag = 0 then conclude no (badKey q) s
  else if s.line.consts.isNone then conclude no (refusal .wrongState Sense.none) s
  else if s.badLength len 0 then
    conclude no (badField (fieldId 0 0x00) [natVal len, natVal (s.k.rs + 1), natVal 20000000]) s
  else
    match paramRange 0x04 c 1 8, s.findRoll tag with
    | some r, _ => conclude no r s
    | none, present =>
      if (s.fibre c).isNone then conclude no (emptyClass c) s
      else
        match present with
        | some r => conclude no (refusal .duplicate (senseVals [natVal r.state.code, natVal (spindleCode r.spindle)])) s
        | none =>
          if Config.rollLimit ≤ s.turret.rolls.length then
            conclude no (refusal .tableFull (senseVals [natVal (s.turret.rolls.countP (fun r => r.state == .spent))])) s
          else
            conclude no done { s with turret.rolls := s.turret.rolls ++
              [{ tag := tag, declared := len, cls := c, width := a.width.toNat, state := .staged, spindle := none, u := 0
                 refs := 0, watch := none }] }

/-- R48: whether a roll belongs to a splice in PRESSING. -/
def State.inPress (s : State) (tag : Nat) : Bool :=
  s.turret.seq == .pressing &&
    (s.turret.outgoing.any (fun p => p.tag == tag) || s.turret.incoming.any (fun p => p.tag == tag))

/-- R44, step 4: a class change of a roll refused, for the roll's state before the class: DESIGN CHOICE (log entry 70). -/
def State.amendClassFail (s : State) (r : Roll) (c : Nat) : Option Answer :=
  if r.state = .prepared ∨ r.state = .running ∨ r.state = .spent then
    some (refusal .wrongState (senseVals [natVal r.state.code]))
  else
    match paramRange 0x08 c 1 8 with
    | some x => some x
    | none => if (s.fibre c).isNone then some (emptyClass c) else none

/-- R44: the flagged fields of a roll written. -/
def amendedRoll (a : AmendArgs) (r : Roll) : Roll :=
  { r with
    declared := if a.setLen then a.len.toNat else r.declared
    cls := if a.setCls then a.cls.toNat else r.cls
    width := if a.setWidth then a.width.toNat else r.width }

/-- R44, steps 3 and 4: the first failure of an amendment. -/
def State.amendRollFail (s : State) (a : AmendArgs) (r : Roll) : Option Answer :=
  if a.setLen ∧ s.badLength a.len.toNat (r.u + 1) then
    some (badField (fieldId 0 0x04) [natVal a.len.toNat, natVal (s.k.rs + 1), natVal 20000000, natVal r.u])
  else if a.setCls then s.amendClassFail r a.cls.toNat
  else none

/-- R44, R45: Amend Roll decided; also on a retry whose roll is no longer present (NO_RECORD: DESIGN CHOICE, log entry 50); a new
length of the RUNNING roll judges the point wish afresh (R150). -/
def decideAmendRoll (no : Nat) (q : Req) (a : AmendArgs) (s : State) : State :=
  let tag := q.key.toNat
  match s.findRoll tag with
  | none => conclude no (if tag = 0 then badKey q else refusal .noRecord Sense.none) s
  | some r =>
    if tag = 0 then conclude no (badKey q) s
    else if s.inPress tag then holdWaiting no (.roll tag) s
    else
      match s.amendRollFail a r with
      | some x => conclude no x s
      | none =>
        let t := s.mapRoll tag (amendedRoll a)
        conclude no done (if r.state = .running ∧ a.setLen then changeWishes judgePoint t else t)

/-- R160: the table summary of Read Roll with key 0. A Splice Now is held while the watch is present, and one that has completed and awaits
its return slot is not: DESIGN CHOICE (log entry 61). -/
def State.rollSummary (s : State) : List (Nat × List Byte) :=
  let t := s.turret
  [(0x00, [b8 t.rolls.length, b8 t.seq.code, b8 (bit t.point 0 + bit t.headWish 1 + bit t.request 2), b8 t.spinA.state.code] ++
    le 4 (orZero t.spinA.tag) ++ [b8 t.spinB.state.code]),
   (0x0C, le 4 (orZero t.spinB.tag) ++ le 4 ((t.outgoing.map PressRoll.tag).getD 0) ++
    le 4 ((t.incoming.map PressRoll.tag).getD 0) ++ le 4 ((t.press.map (fun d => d.value.toNat)).getD 0) ++
    [b8 (flagNat t.now.isSome)])]

/-- R46, R160: Read Roll decided. -/
def decideReadRoll (no : Nat) (q : Req) (s : State) : State :=
  let tag := q.key.toNat
  if tag = 0 then
    let out := recordBytes q.data 32 (s.turret.rolls.map Roll.bytes)
    conclude no { doneParams s.rollSummary with data := out.1, residual := out.2 } s
  else
    match s.findRoll tag with
    | some r => conclude no (doneParams [(0, r.bytes)]) s
    | none => conclude no (refusal .noRecord Sense.none) s

/-- A spindle with nothing on it. -/
def emptied (x : Spindle) : Spindle := { x with state := .empty, tag := none }

/-- R47: an unused roll leaves its spindle, if any, and the table. -/
def unmount (r : Roll) (s : State) : State :=
  removeRoll r.tag (match r.spindle with | some i => s.mapSpindle i emptied | none => s)

/-- R47: Retire Roll decided. -/
def decideRetireRoll (no : Nat) (q : Req) (s : State) : State :=
  let tag := q.key.toNat
  match s.findRoll tag with
  | none => conclude no (if tag = 0 then badKey q else refusal .noRecord Sense.none) s
  | some r =>
    if tag = 0 then conclude no (badKey q) s
    else if s.inPress tag then holdWaiting no (.roll tag) s
    else
      match r.state with
      | .staged => conclude no done (unmount r s)
      | .mounted => conclude no done (unmount r s)
      | .prepared => conclude no done (publish (unmount r s))
      | .running => conclude no (refusal .inUse (senseVals [natVal r.remaining])) s
      | .spent =>
        if r.watch.isSome then
          conclude no (refusal .wrongState (senseVals [natVal r.refs, natVal (spindleCode r.spindle)])) s
        else if r.releasable then conclude no done (removeRoll tag s)
        else holdRunning no (s.mapRoll tag (fun x => { x with watch := some no }))

/-! ### Mount Roll (R147) -/

/-- R147: the spindle a code names. -/
def spindleOfCode (c : Nat) : Option SpindleId := if c = 1 then some .a else if c = 2 then some .b else none

/-- R147: where a threaded start is made. -/
def State.threadedAllowed (s : State) : Bool :=
  s.runningRoll.isNone && (s.line.state == .off || s.line.state == .standby || s.line.state == .thread)

/-- R147: a threaded start: a roll becomes RUNNING on a spindle; the unwind output, the wishes, the ceiling, the test for RUN and
the trigger test follow, and the head takes its boundary again. -/
def threadedStart (tag : Nat) (i : SpindleId) (s : State) : State :=
  let t := (s.mapRoll tag (fun r => { r with state := .running, spindle := some i, u := 0 })).mapSpindle i
    (fun x => { x with state := .feeding, tag := some tag })
  triggerTest (publish (judgeSeq (judgePoint (judgeUnwind (headAgain t)))))

/-- R147: a roll mounted and not yet prepared. -/
def mountRoll (tag : Nat) (i : SpindleId) (s : State) : State :=
  (s.mapRoll tag (fun r => { r with state := .mounted, spindle := some i })).mapSpindle i
    (fun x => { x with state := .loaded, tag := some tag })

/-- R147: the answer of Mount Roll, with the states of both spindles after the event. -/
def mountAnswer (detail : Nat) (s : State) : Answer :=
  { doneDetail detail with params := [(0x02, [b8 s.turret.spinA.state.code, b8 s.turret.spinB.state.code])] }

/-- R147: Mount Roll decided. The WRONG_STATE of step 5 gives the roll's state and spindle as that of step 3 does: DESIGN CHOICE (log entry
64). A tag of 0 is named before a spindle code that names no spindle, where step 1 has both: DESIGN CHOICE (log entry 70). -/
def decideMount (no : Nat) (q : Req) (spindle : U8) (s : State) : State :=
  let tag := q.key.toNat
  if tag = 0 then conclude no (badKey q) s
  else
    match spindleOfCode spindle.toNat, s.findRoll tag with
    | none, _ => conclude no (badField (fieldId 0 0x00) [natVal spindle.toNat]) s
    | some _, none => conclude no (refusal .noRecord Sense.none) s
    | some i, some r =>
      let wrong := refusal .wrongState (senseVals [natVal r.state.code, natVal (spindleCode r.spindle)])
      match r.state with
      | .running => conclude no wrong s
      | .spent => conclude no wrong s
      | .staged =>
        if (s.spindle i).state ≠ .empty then
          conclude no (refusal .inUse ⟨0, some (spindleIdCode i),
            [natVal (s.spindle i).state.code, natVal (orZero (s.spindle i).tag)]⟩) s
        else if s.threadedAllowed then
          let t := threadedStart tag i s
          conclude no (mountAnswer 1 t) t
        else
          let t := mountRoll tag i s
          conclude no (mountAnswer 2 t) t
      | _ =>
        if r.spindle = some i ∧ s.threadedAllowed then
          let t := threadedStart tag i s
          conclude no (mountAnswer 3 t) t
        else conclude no wrong s

/-! ### Splice Now (R158) -/

/-- WRONG_STATE with the line state. -/
def State.wrongLine (s : State) : Answer := refusal .wrongState (senseVals [natVal s.line.state.code])

/-- R158: Splice Now decided. Held is what the watch says: one that has completed and awaits its return slot refuses no other: DESIGN
CHOICE (log entry 61). -/
def decideSpliceNow (no : Nat) (s : State) : State :=
  if s.line.state = .off ∨ s.line.state = .halt then conclude no s.wrongLine s
  else if s.runningRoll.isNone ∨ s.turret.now.isSome then conclude no (refusal .wrongState Sense.none) s
  else
    changeWishes (fun t => { t with turret.request := true }) (holdRunning no { s with turret.now := some no })

end Sys2Proof.Machine
end

