-- ==== Sys2Proof/Machine/Orders.lean ====
section
/-! DEFINITION. The decisions of the order requests (R51 to R53, R59, R62) and of Align Blade (R85). -/

namespace Sys2Proof.Machine

/-! ### Place Order (R51, R52, R53) -/

/-- A field out of its range refuses as BAD_PARAM with the field and the value (R51). -/
def orderRange (field v lo hi : Nat) : Option Answer :=
  if lo ≤ v ∧ v ≤ hi then none else some (badField field [natVal v])

/-- R51, step 1. Where more than one field is out of its range, the first in the sequence of step 1 is named, the class before the
registration code: DESIGN CHOICE (log entry 70). -/
def orderFail (q : Req) (a : OrderArgs) : Option Answer :=
  let marked := a.reg.toNat == 1
  [orderRange keyField q.key.toNat 1 65535, orderRange (fieldId 0 0x00) a.pattern.toNat 0 47,
    orderRange (fieldId 0 0x01) a.size.toNat 0 11, orderRange (fieldId 0 0x02) a.cls.toNat 1 2,
    orderRange (fieldId 0 0x03) a.reg.toNat 0 1, orderRange (fieldId 0 0x04) a.n.toNat 1 999,
    orderRange (fieldId 0 0x06) a.remakes.toNat 0 15,
    if marked then orderRange (fieldId 0 0x07) a.mult.toNat 1 12 else none,
    if marked then orderRange (fieldId 0 0x08) a.offset.toNat 0 5000 else none,
    if marked then orderRange (fieldId 0 0x0A) a.rep.toNat 500 20000 else none].findSome? id

/-- R53: the record of a placement. -/
def newOrder (q : Req) (a : OrderArgs) (watch : Option Nat) : Order :=
  { tag := q.key.toNat, pattern := a.pattern.toNat, size := a.size.toNat
    cls := if a.cls.toNat = 1 then .rush else .normal
    n := a.n.toNat, m := a.n.toNat, formed := 0, good := 0, reject := 0, remakeLimit := a.remakes.toNat, remakes := 0
    marks := if a.reg.toNat = 1 then some ⟨a.mult.toNat, a.offset.toNat, a.rep.toNat⟩ else none
    page := none, live := 0, cancel := false, watch := watch, state := .queued }

/-- R52: the oldest live panel that carries a tag. -/
def State.carrier (s : State) (tag : Nat) : Option Panel :=
  s.web.panels.find? (fun p => p.order == tag && p.state != .exited)

/-- R53, R62: the place of an order in the queue sequence, counted from 0 as 12_worked_sequences.md counts it (420 at place 1 behind
the FORMING order 419). -/
def State.place (s : State) (tag : Nat) : Nat := s.queueSeq.findIdx (fun o => o.tag == tag)

/-- R51, steps 5 to 9: the first failure against the next page. A tag that a live panel carries is refused with that panel's id, whether
or not a record holds the tag too (R52), as a value; its sense key is the order tag of the request: DESIGN CHOICE (log entry 63). -/
def State.placeFail (s : State) (p : Page) (o : Order) : Option Answer :=
  match s.carrier o.tag with
  | some x => some (refusal .duplicate (senseVals [natVal x.id]))
  | none =>
    if (s.findOrder o.tag).isSome then some (refusal .duplicate Sense.none)
    else if Config.orderLimit ≤ s.orders.length then
      some (refusal .tableFull (senseVals [natVal (s.orders.countP (fun x => x.state == .awaitingExit))]))
    else s.orderTest p o

/-- R53: the order's record is created and its pattern's use count rises. -/
def addOrder (o : Order) (s : State) : State :=
  ({ s with orders := s.orders ++ [o] }).mapSlot o.pattern (fun x => { x with uses := x.uses + 1 })

/-- R53: the figures of a placement. -/
def placeAnswer (s : State) (tag : Nat) (m : Measured) : Answer :=
  doneParams [(0x0C, [b8 (s.place tag)]), (0x10, le 4 m.t ++ le 4 m.out)]

/-- R53: an accepted placement; with notify the figures are written and the request becomes the order's watch (log entry 9 where
that write faults). -/
def acceptOrder (no : Nat) (q : Req) (o : Order) (notify : Bool) (m : Measured) (s : State) : State :=
  let t := addOrder o s
  let a := placeAnswer t o.tag m
  let w := paramWrites q.block.toNat a.params
  let u :=
    if notify && t.storeOk w then
      holdRunning no ((t.store w).mapOrder o.tag (fun x => { x with watch := some no }))
    else conclude no a t
  reportCandidate u

/-- R51: Place Order decided. A slot that holds no pattern, or is RETIRING, is the record concerned: the key in the sense data is the
pattern number (R178). -/
def decidePlace (no : Nat) (q : Req) (a : OrderArgs) (s : State) : State :=
  let n := a.pattern.toNat
  let x := s.slot n
  match orderFail q a with
  | some r => conclude no r s
  | none =>
    if a.reg.toNat = 1 ∧ s.line.consts.isNone then conclude no (refusal .wrongState Sense.none) s
    else if x.busy then holdWaiting no (.slot n) s
    else
      match x.state, x.nextPage with
      | .free, _ => conclude no (refusal .noRecord ⟨0, some n, []⟩) s
      | .retiring, _ => conclude no (refusal .wrongState ⟨0, some n, []⟩) s
      | .active, none => conclude no (refusal .noRecord ⟨0, some n, []⟩) s
      | .active, some p =>
        let o := newOrder q a none
        match s.placeFail p o with
        | some r => conclude no r s
        | none => acceptOrder no q o a.notify (p.measure o.size s.runningK) s

/-! ### Read Order and Cancel Order (R59, R62) -/

/-- R62: Read Order decided. -/
def decideReadOrder (no : Nat) (q : Req) (s : State) : State :=
  let tag := q.key.toNat
  if 65535 < tag then conclude no (badKey q) s
  else if tag = 0 then
    let out := recordBytes q.data 32 (s.queueSeq.map (fun o => o.bytes (s.place o.tag)))
    conclude no { doneParams [(0x00, [b8 s.orders.length]), (0x02, le 2 ((s.candidate.map Order.tag).getD 0))] with
      data := out.1, residual := out.2 } s
  else
    match s.findOrder tag with
    | some o => conclude no (doneParams [(0, o.bytes (s.place tag))]) s
    | none => conclude no (refusal .noRecord Sense.none) s

/-- R59: whether the FORMING panel is one of an order. -/
def State.panelForming (s : State) (tag : Nat) : Bool := s.head.panel.any (fun id => s.panelOrder id == tag)

/-- R59: the cancel mark set. -/
def markCancel (tag : Nat) (s : State) : State := s.mapOrder tag (fun o => { o with cancel := true })

/-- R59: what a cancel does, and the detail it reports. -/
def cancelOrder (o : Order) (cut : Bool) (s : State) : State × Nat :=
  match o.state with
  | .queued => (concludeWatch o.watch (endAnswer o true) (removeOrder o s), 1)
  | .forming =>
    if s.panelForming o.tag then
      if cut then (cutByRequest (markCancel o.tag s), 3) else (markCancel o.tag s, 2)
    else (releaseOrder o.tag (markCancel o.tag s), 4)
  | .awaitingExit => (markCancel o.tag s, 5)

/-- R59: Cancel Order decided. -/
def decideCancel (no : Nat) (q : Req) (cut : Bool) (s : State) : State :=
  let tag := q.key.toNat
  if tag = 0 ∨ 65535 < tag then conclude no (badKey q) s
  else
    match s.findOrder tag with
    | none => conclude no (refusal .noRecord Sense.none) s
    | some o =>
      let r := cancelOrder o cut s
      conclude no (doneDetail r.2) r.1

/-! ### Align Blade (R85) -/

/-- R85, R75: the TRIAL run begins, at once or behind a passage in progress (log entry 17). -/
def beginTrials (roll : Nat) (s : State) : State :=
  let r := newRun .trial none
  if s.head.passage = .none then
    match openSeg .trial roll none s with
    | some t => { t with head.run := some { r with opened := true } }
    | none => { s with head.run := some r }
  else { s with head.suspended := some r }

/-- R85: Align Blade decided. It is WRONG_STATE before it is TABLE_FULL: DESIGN CHOICE (log entry 70). The request is held and the alignment
runs under it before the TRIAL segment is opened, so that a ring fault met there drops the entry of the trials with every other (R172, R175;
DEDUCED, log entry 72). -/
def decideAlign (no : Nat) (s : State) : State :=
  match s.bladeRoll with
  | none => conclude no s.wrongLine s
  | some roll =>
    if s.line.state ≠ .thread ∨ s.head.align.isSome then conclude no s.wrongLine s
    else if Config.segLimit ≤ s.web.segs.length then conclude no (refusal .tableFull Sense.none) s
    else
      let t := judgeHead { misalign s with head.align := some ⟨some no, 0, 0, none⟩ }
      headAgain (beginTrials roll (holdRunning no t))

end Sys2Proof.Machine
end

