-- ==== Sys2Proof/Machine/Panels.lean ====
section
/-! DEFINITION. The decisions of the panel and web requests (R99, R102 to R105) and of the zone requests (R124, R125). -/

namespace Sys2Proof.Machine

/-! ### Read Panel, Await Panel Exit, Release Panel (R99, R102, R103) -/

/-- Panels in a state. -/
def State.panelsIn (s : State) (st : PanelState) : Nat := s.web.panels.countP (fun p => p.state == st)

/-- R103: the summary of the panel table. -/
def State.panelSummary (s : State) : List Byte :=
  [b8 (s.panelsIn .forming), b8 (s.panelsIn .inPath), b8 (s.panelsIn .exited),
    b8 (Config.panelLimit - s.web.panels.length)] ++ le 2 s.web.nextPanel ++ [b8 s.web.awaits.length]

/-- R103: the answer of Read Panel with a key of 0: the summary, and whole records as far as the data area holds them. -/
def State.panelsAnswer (s : State) (q : Req) : Answer :=
  let out := recordBytes q.data Config.panelBytes (s.web.panels.map s.panelRecord)
  { doneParams [(0, s.panelSummary)] with data := out.1, residual := out.2 }

/-- R103, R167: the answer of Read Panel with an id: the record written up to the end of the data area. The residual gives the bytes not
written: DESIGN CHOICE (log entry 52). -/
def State.panelAnswer (s : State) (q : Req) (p : Panel) : Answer :=
  let bs := s.panelRecord p
  { done with data := dataBytes q.data bs, residual := residualBytes q.data bs }

/-- R103: Read Panel decided. -/
def decideReadPanel (no : Nat) (q : Req) (s : State) : State :=
  let id := q.key.toNat
  if 65535 < id then conclude no (badKey q) s
  else if id = 0 then conclude no (s.panelsAnswer q) s
  else
    match s.findPanel id with
    | some p => conclude no (s.panelAnswer q p) s
    | none => conclude no (refusal .noRecord Sense.none) s

/-- R99: Await Panel Exit decided. -/
def decideAwait (no : Nat) (q : Req) (s : State) : State :=
  if dataTotal q.data < Config.panelBytes then
    conclude no (refusal .badParam (senseField lenField [natVal (dataTotal q.data), natVal Config.panelBytes])) s
  else
    match s.web.exits with
    | id :: _ => (deliver no id s).1
    | [] => holdRunning no { s with web.awaits := s.web.awaits ++ [no] }

/-- R102: Release Panel decided. -/
def decideRelease (no : Nat) (q : Req) (s : State) : State :=
  let id := q.key.toNat
  if id = 0 ∨ 65535 < id then conclude no (badKey q) s
  else
    match s.findPanel id with
    | none => conclude no (refusal .noRecord Sense.none) s
    | some p =>
      if p.state = .exited then conclude no done (freePanel id s)
      else conclude no (refusal .wrongState (senseVals [natVal p.state.code])) s

/-! ### Read Web Map and Purge Web (R104, R105) -/

/-- R104: the summary of the segment list; an empty list gives 0 for its oldest and newest number: DESIGN CHOICE (log entry 53). -/
def State.mapSummary (s : State) : List Byte :=
  [b8 s.web.segs.length, b8 s.freePlaces] ++ le 2 ((s.web.segs.head?.map Segment.number).getD 0) ++
    le 2 ((s.newestSeg.map Segment.number).getD 0) ++ le 2 s.web.nextSeg ++ le 6 s.head.f ++ le 6 s.head.o

/-- R104: Read Web Map decided. -/
def decideReadMap (no : Nat) (q : Req) (s : State) : State :=
  let out := recordBytes q.data 40 (s.web.segs.map Segment.bytes)
  conclude no { doneParams [(0, s.mapSummary)] with data := out.1, residual := out.2 } s

/-- R121: every cell emptied, keeping its lower bound. -/
def emptyCells (s : State) : State := { s with chest.cells := s.chest.cells.map (fun c => { c with fill := none }) }

/-- The closed segments of the list, oldest first. -/
def State.closedSegs (s : State) : List Segment := s.web.segs.filter (fun g => g.fEnd.isSome)

/-- R105, step 2: every closed segment leaves the list, oldest first, each lowering its roll's count. -/
def dropClosed (s : State) : State :=
  s.closedSegs.foldl (fun t g => dropRef g.roll t) { s with web.segs := s.web.segs.filter (fun g => g.fEnd.isNone) }

/-- R105, step 4: the open segment cut back to zero length at the current F and O. -/
def cutBack (s : State) : State :=
  { s with web.segs := s.web.segs.map (fun g => { g with fStart := s.head.f, oStart := s.head.o }) }

/-- R105: what Purge Web does, in the rule's order: the cells are emptied, every closed segment leaves and lowers its roll's count, then
the panels of those segments exit in list order, the open segment is cut back, and the free places are reported. -/
def purgeWeb (s : State) : State :=
  let t := cutBack (s.closedSegs.foldl (exitSeg State.purgedReasons) (dropClosed (emptyCells s)))
  publish (if s.closedSegs.isEmpty then t else reportPlaces t)

/-- R105: Purge Web decided. Outside OFF and STANDBY the sense data gives the line state alone, also while a unit is in flight: DESIGN
CHOICE (log entry 71). -/
def decidePurge (no : Nat) (s : State) : State :=
  if s.line.state ≠ .off ∧ s.line.state ≠ .standby then conclude no s.wrongLine s
  else if s.head.flight.isSome then conclude no (refusal .wrongState (senseVals [natVal s.head.state.code])) s
  else
    conclude no (doneParams [(0, [b8 s.closedSegs.length, b8 (s.closedSegs.countP (fun g => g.kind == .panel))])])
      (purgeWeb s)

/-! ### Set Zones and Read Zones (R124, R125) -/

/-- R124: Set Zones decided. -/
def decideSetZones (no : Nat) (a : ZonesArgs) (s : State) : State :=
  match zonesFail a.flags.toNat 0 (zoneValues a) with
  | some r => conclude no r s
  | none =>
    let t := editZones a s
    conclude no (doneParams [(0x18, [b8 t.enabledMarks])]) t

/-- R125: the classes present, bit c - 1 for class c. -/
def State.classBits (s : State) : Nat := (s.classesPresent.map (fun c => 2 ^ (c - 1))).sum

/-- R125: the summary of the chest. -/
def State.chestSummary (s : State) : List (Nat × List Byte) :=
  let p := s.chest.par
  [(0x00, le 2 p.band ++ le 2 p.drop ++ le 2 p.stepUp ++ le 2 p.stepDown ++ le 2 p.leapAt ++ le 2 p.leapDown ++
    [b8 s.line.ceiling, b8 (orZero s.line.limiting), b8 s.classBits, b8 (flagNat s.line.zonesReady),
      b8 (s.chest.cells.countP (fun c => c.fill.isSome))]),
   (0x12, le 6 s.chest.entry)]

/-- R125: the records of Read Zones. -/
def State.chestRecords (s : State) (cells : Bool) : List (List Byte) :=
  s.chest.zones.mapIdx (fun i z => z.bytes (i + 1) s.line.clock) ++
    (if cells then s.chest.cells.mapIdx (fun i c => c.bytes i) else [])

/-- R125: Read Zones decided. -/
def decideReadZones (no : Nat) (q : Req) (cells : Bool) (s : State) : State :=
  let out := fieldBytes q.data (s.chestRecords cells)
  conclude no { doneParams s.chestSummary with data := out.1, residual := out.2 } s

end Sys2Proof.Machine
end

