-- ==== Sys2Proof/Machine/LineRequests.lean ====
section
/-! DEFINITION. The decisions of the line requests (R127 to R129, R133, R134, R136, R137, R143, R145), the dispatch of a request to its
decision (R166, step 8), and the retry of waiting requests (R169). -/

namespace Sys2Proof.Machine

/-! ### Energise, De-energise, Thread, Start (R127, R128, R129) -/

/-- R127: Energise decided. Outside OFF the sense data gives the line state alone, also while an input is active or the constants are unset:
DESIGN CHOICE (log entry 71). -/
def decideEnergise (no : Nat) (s : State) : State :=
  if s.line.state ≠ .off then conclude no s.wrongLine s
  else if s.line.consts.isNone ∨ s.line.estop ∨ s.line.drive then
    conclude no (refusal .wrongState (senseVals
      [natVal (flagNat s.line.consts.isNone), natVal (flagNat s.line.estop), natVal (flagNat s.line.drive)])) s
  else conclude no done (enterLine .standby s)

/-- R127: De-energise decided. -/
def decideDeEnergise (no : Nat) (s : State) : State :=
  if s.line.state ≠ .standby then conclude no s.wrongLine s else conclude no done (enterLine .off s)

/-- R128: Thread decided. -/
def decideThread (no : Nat) (s : State) : State :=
  if s.line.state ≠ .standby then conclude no s.wrongLine s else conclude no done (enterLine .thread s)

/-- R129: Start decided. With no roll RUNNING the sense data gives the line state and 1 for that condition (log entry 10). Another Start is
held while the start watch is present, and one that has completed and awaits its return slot is not: DESIGN CHOICE (log entry 65). An
INVALID alignment is refused as NOT_ALIGNED also while no roll is RUNNING: DESIGN CHOICE (log entry 70). -/
def decideStart (no : Nat) (s : State) : State :=
  if s.line.state ≠ .standby ∨ s.line.startWatch.isSome then conclude no s.wrongLine s
  else if ¬ s.head.aligned then conclude no (refusal .notAligned (senseVals [natVal s.head.offset])) s
  else if s.runningRoll.isNone then conclude no (refusal .wrongState (senseVals [natVal s.line.state.code, 1])) s
  else enterLine .starting (holdRunning no { s with line.startWatch := some no, line.deadline := some 0 })

/-! ### Stop, Hold, Resume, Clear Halt (R133, R134, R136) -/

/-- R134: a request held as a stop watch; one whose entry a ring fault dropped earlier in the same event, when the cut or the end of the
Start was posted, is held no more and leaves no watch (R172, R175; DEDUCED, log entry 72). -/
def addStop (no : Nat) (s : State) : State :=
  if s.holdsEntry no then holdRunning no { s with line.stopWatches := s.line.stopWatches ++ [no] } else s

/-- R130: a start watch ended by a Stop. -/
def abortStart (s : State) : State :=
  concludeWatch s.line.startWatch (abortedAnswer 3) { s with line.startWatch := none }

/-- R82, R134: the cut flag of a Stop. -/
def cutIf (cut : Bool) (s : State) : State := if cut then cutByRequest s else s

/-- R134: Stop decided. -/
def decideStop (no : Nat) (cut : Bool) (s : State) : State :=
  match s.line.state with
  | .run => addStop no (abortStart (enterLine .stopping (cutIf cut s)))
  | .hold => addStop no (abortStart (enterLine .stopping (cutIf cut s)))
  | .starting => addStop no (abortStart (enterLine .stopping (cutIf cut s)))
  | .stopping => addStop no (cutIf cut s)
  | .thread =>
    let t := match s.head.align with
      | some a => finishAlign a (haltedAnswer s.line.cause) (misalign s)
      | none => s
    conclude no done (enterLine .standby t)
  | _ => conclude no s.wrongLine s

/-- R133: Hold decided. -/
def decideHold (no : Nat) (s : State) : State :=
  match s.line.state with
  | .starting => conclude no done (raiseReason .operator s)
  | .run => conclude no done (raiseReason .operator s)
  | .hold => conclude no done (raiseReason .operator s)
  | _ => conclude no s.wrongLine s

/-- R133: Resume decided. -/
def decideResume (no : Nat) (s : State) : State :=
  if s.line.holds.operator then clearReason .operator (conclude no done s)
  else conclude no (refusal .wrongState (senseVals [natVal s.line.state.code, natVal s.line.holds.bits])) s

/-- R136: Clear Halt decided. -/
def decideClearHalt (no : Nat) (s : State) : State :=
  if s.line.state ≠ .halt then conclude no s.wrongLine s
  else if s.line.estop ∨ s.line.drive then
    conclude no (refusal .wrongState (senseVals [natVal (flagNat s.line.estop), natVal (flagNat s.line.drive)])) s
  else
    conclude no (doneParams [(0x00, [b8 (causeCode s.line.cause)]), (0x02, le 2 s.line.halts.bits)])
      (enterLine .standby { s with line.cause := none, line.halts := Halts.empty })

/-! ### Speed (R137) -/

/-- R137: a speed clamped into a range. -/
def clampSpeed (r : SpeedRange) (v : Nat) : Nat := max r.min (min v r.max)

/-- R137: Set Speed decided. -/
def decideSetSpeed (no : Nat) (speed : U16) (s : State) : State :=
  let v := clampSpeed s.line.range speed.toNat
  let t := recomputeSpeed { s with line.commanded := v }
  conclude no { doneDetail (if v = speed.toNat then 1 else 2) with
    params := [(0x02, [b8 t.line.commanded, b8 t.line.effective])] } t

/-- R137: a change of the speed range. -/
def changeRange (r : SpeedRange) (s : State) : State :=
  recomputeSpeed (misalign
    { s with line.range := r, line.commanded := clampSpeed r s.line.commanded, line.limit := r.max })

/-- R137: the range a code names. -/
def rangeOfCode (c : Nat) : Option SpeedRange := if c = 0 then some .low else if c = 1 then some .high else none

/-- R137: Set Range decided. Outside OFF and STANDBY it is WRONG_STATE also for a code that names neither range: DESIGN CHOICE (log entry
70). -/
def decideSetRange (no : Nat) (code : U8) (s : State) : State :=
  if s.line.state ≠ .off ∧ s.line.state ≠ .standby then conclude no s.wrongLine s
  else
    match rangeOfCode code.toNat with
    | none => conclude no (badField (fieldId 0 0x00) [natVal code.toNat]) s
    | some r =>
      if r = s.line.range then conclude no (doneDetail 1) s
      else
        let t := changeRange r s
        conclude no { doneDetail 2 with params := [(0x02, [b8 t.line.commanded])] } t

/-! ### Line constants (R143) -/

/-- R143: a whole set of constants applied. -/
def applyConsts (k : Consts) (s : State) : State :=
  let t := misalign { s with line.consts := some k, head.window := k.window }
  publish (changeWishes judgePoint (judgeLatch t))

/-- R143: the sense record of a constant out of range. -/
def constAnswer (f : ConstFail) : Answer := badField (fieldId 3 f.offset) f.vals

/-- R143: Set Line Constants decided. A data area of the wrong length gives the total found and 36 as the values of SEGMENT_LIST, where R143
and R167 name none: DESIGN CHOICE (log entry 64). Outside OFF the sense data gives the line state alone, also while a splice arrival is
pending: DESIGN CHOICE (log entry 71). -/
def decideSetConsts (no : Nat) (q : Req) (s : State) : State :=
  if s.line.state ≠ .off then conclude no s.wrongLine s
  else
    match s.head.arrival with
    | some a => conclude no (refusal .wrongState (senseVals (posVals a.pos ++ posVals s.head.f))) s
    | none =>
      let total := dataTotal q.data
      if total ≠ Config.constsBytes then
        conclude no (refusal .segmentList (senseField lenField [natVal total, natVal Config.constsBytes])) s
      else
        match s.load (dataAddrs q.data Config.constsBytes) with
        | none => conclude no (refusal .busFault Sense.none) s
        | some bs =>
          match constsFirstFail (parseConsts bs) s.line.store with
          | some f => conclude no (constAnswer f) s
          | none => conclude no done (applyConsts (parseConsts bs) s)

/-- R145: Read Line Status decided. -/
def decideReadStatus (no : Nat) (q : Req) (constants : Bool) (s : State) : State :=
  let out := fieldBytes q.data (s.headFields ++ (if constants then constsFields s.k else []))
  conclude no { doneParams [(0, s.lineStatus)] with data := out.1, residual := out.2 } s

/-! ### Dispatch and retry (R166, R169) -/

/-- R166, step 8: a request handed to the block that owns it. -/
def decideCall (no : Nat) (q : Req) (c : Call) (s : State) : State :=
  match c with
  | .definePattern => decideDefine no q s
  | .amendPattern => decideAmend no q s
  | .readPattern alt => decideReadPattern no q alt s
  | .retirePattern => decideRetirePattern no q s
  | .measurePattern a => decideMeasure no q a s
  | .setFibreClass a => decideSetClass no a s
  | .clearFibreClass c => decideClearClass no c s
  | .readFibreClass c => decideReadClass no c s
  | .registerRoll a => decideRegister no q a s
  | .amendRoll a => decideAmendRoll no q a s
  | .readRoll => decideReadRoll no q s
  | .retireRoll => decideRetireRoll no q s
  | .placeOrder a => decidePlace no q a s
  | .readOrder => decideReadOrder no q s
  | .cancelOrder cut => decideCancel no q cut s
  | .alignBlade => decideAlign no s
  | .readPanel => decideReadPanel no q s
  | .awaitPanelExit => decideAwait no q s
  | .releasePanel => decideRelease no q s
  | .readWebMap => decideReadMap no q s
  | .purgeWeb => decidePurge no s
  | .setZones a => decideSetZones no a s
  | .readZones cells => decideReadZones no q cells s
  | .energise => decideEnergise no s
  | .deEnergise => decideDeEnergise no s
  | .thread => decideThread no s
  | .start => decideStart no s
  | .stop cut => decideStop no cut s
  | .hold => decideHold no s
  | .resume => decideResume no s
  | .clearHalt => decideClearHalt no s
  | .setSpeed v => decideSetSpeed no v s
  | .setRange r => decideSetRange no r s
  | .setLineConstants => decideSetConsts no q s
  | .readLineStatus c => decideReadStatus no q c s
  | .mountRoll sp => decideMount no q sp s
  | .spliceNow => decideSpliceNow no s

/-- R169: one waiting request decided afresh; an Amend Roll from step 1 of R44 (log entry 50). -/
def redecide (s : State) (no : Nat) : State :=
  match s.entry no with
  | some e =>
    match e.stage, e.req with
    | .waiting _, some (q, c) => decideCall no q c s
    | _, _ => s
  | none => s

/-- R169: every request waiting for a record that frees is retried, in arrival order. -/
def retryFor (p : Await → Bool) (s : State) : State := (s.waitingFor p).foldl redecide s

/-- R6, R7: what the end of a fetch frees: its slot and an assembly buffer. -/
def freesFetch (n : Nat) : Await → Bool
  | .slot m => m == n
  | .buffers => true
  | .roll _ => false

/-- R48: what the end of a press frees: its two rolls. -/
def freesRolls (a b : Option PressRoll) : Await → Bool
  | .roll t => a.any (fun p => p.tag == t) || b.any (fun p => p.tag == t)
  | _ => false

end Sys2Proof.Machine
end

