-- ==== Sys2Proof/Machine/Halt.lean ====
section
/-! DEFINITION. Halts (R135) and the end of a press (R154 to R157, R159). -/

namespace Sys2Proof.Machine

/-! ### The end of a press (R154, R156) -/

/-- R142: leaving PRESSING sets a new feed-stall deadline when the head is still starved. -/
def restartStall (s : State) : State := { s with line.stall := if s.line.starved then some s.line.clock else none }

/-- R156: a press ended without a splice: the incoming roll is MOUNTED again, the outgoing roll stays RUNNING, and the Splice Now
watch leaves the record for its completion. -/
def closePress (s : State) : State :=
  let t := match s.turret.incoming with
    | some p => (s.mapRoll p.tag (fun r => { r with state := .mounted })).mapSpindle p.spindle
        (fun x => { x with state := .loaded })
    | none => s
  restartStall (judgeUnwind (judgeSeq { t with
    turret.seq := .idle, turret.pressOut := false, turret.outgoing := none, turret.incoming := none, turret.press := none
    turret.request := false, turret.now := none }))

/-- The tag of a press roll, 0 when absent. -/
def pressTag (p : Option PressRoll) : Nat := (p.map PressRoll.tag).getD 0

/-- R159: how a Splice Now ends when the press faults. -/
def spliceFaultAnswer (t : Turret) : Answer :=
  { refusal .spliceFault Sense.none with
    params := [(0x08, le 4 (pressTag t.incoming) ++ le 4 (pressTag t.outgoing)), (0x1C, [b8 (flagNat t.tail)])] }

/-- R156, R159: after a press the ceiling is recomputed, the Splice Now completes and waiting requests are retried. -/
def afterPress (old : Turret) (a : Answer) (s : State) : State :=
  retryFor (freesRolls old.outgoing old.incoming) (concludeWatch old.now a (publish s))

/-! ### Halts (R135) -/

/-- R135: a cause joins the halt set. -/
def addCause (c : HaltCause) (s : State) : State := { s with line.halts := s.line.halts.add c }

/-- R156: the turret as a halt finds the sequence PRESSING. -/
def haltPress (s : State) : State :=
  let t := addCause .spliceFault (closePress s)
  afterPress s.turret (spliceFaultAnswer s.turret) (if s.turret.tail then addCause .tailOut t else t)

/-- R157: the turret as a halt finds the sequence not PRESSING. -/
def haltIdle (s : State) : State :=
  concludeWatch s.turret.now (haltedAnswer s.line.cause)
    (changeWishes (fun t => { t with turret.request := false }) { s with turret.now := none })

/-- The turret at a halt that found the sequence PRESSING, or not (R156, R157). -/
def haltTurret (pressing : Bool) (s : State) : State := if pressing then haltPress s else haltIdle s

/-- R130, R134: the held Start and Stop requests end with LINE_HALTED. -/
def haltWatches (s : State) : State :=
  let a := haltedAnswer s.line.cause
  concludeAll s.line.stopWatches a
    (concludeWatch s.line.startWatch a { s with line.startWatch := none, line.stopWatches := [] })

/-- R135: the line enters HALT. -/
def enterHalt (c : HaltCause) (s : State) : State :=
  haltTurret (s.turret.seq == .pressing)
    (haltHead (haltWatches (lineTo .halt (addCause c { s with line.cause := some c }))))

/-- R135: a halt cause raised. -/
def raiseHalt (c : HaltCause) (s : State) : State :=
  match s.line.state with
  | .off => s
  | .halt => addCause c s
  | _ => enterHalt c s

/-! ### A made splice and a splice timeout (R154, R155, R156) -/

/-- R155: whether a made splice at a position conflicts with a panel FORMING. -/
def State.spliceConflict (s : State) (pos : Nat) : Bool :=
  s.head.panel.isSome && decide (pos < s.head.committed + s.k.guardLen)

/-- R159: how a Splice Now ends at a made splice. -/
def spliceMadeAnswer (s : State) (out inc : PressRoll) (pos : Nat) : Answer :=
  let rest := ((s.findRoll out.tag).map Roll.remaining).getD 0
  let figures := [(0x00, le 6 pos), (0x08, le 4 inc.tag ++ le 4 out.tag ++ le 4 rest)]
  if s.spliceConflict pos then
    { doneDetail 2 with params := figures ++ [(0x14, le 6 s.head.committed)] }
  else { doneDetail 1 with params := figures }

/-- R154, steps 2 to 6: the rolls exchange roles and the arrival is reported to the head. -/
def exchangeRolls (out inc : PressRoll) (pos : Nat) (s : State) : State :=
  let a := (s.mapRoll out.tag (fun r => { r with state := .spent })).mapSpindle out.spindle
    (fun x => { x with state := .core })
  let b := (a.mapRoll inc.tag (fun r => { r with state := .running, u := 0 })).mapSpindle inc.spindle
    (fun x => { x with state := .feeding })
  judgeSeq (judgePoint { b with
    turret.seq := .idle, turret.pressOut := false, turret.outgoing := none, turret.incoming := none, turret.press := none
    turret.request := false, turret.tail := false, turret.headWish := false, turret.now := none
    head.wish := false, head.arrival := some ⟨pos, inc.tag⟩ })

/-- R154, R155: the splice is made. -/
def spliceDone (out inc : PressRoll) (s : State) : State :=
  let pos := s.splicerPos
  let t := headAgain (restartStall (judgeUnwind (exchangeRolls out inc pos s)))
  let u := afterPress s.turret (spliceMadeAnswer s out inc pos) t
  if s.spliceConflict pos then raiseHalt .spliceFault u else u

/-- R156: a press ended by its timeout. -/
def pressTimeout (s : State) : State :=
  let t := raiseHalt .spliceFault (closePress s)
  afterPress s.turret (spliceFaultAnswer s.turret) (if s.turret.tail then raiseHalt .tailOut t else t)

end Sys2Proof.Machine
end

