-- ==== Sys2Proof/Machine/Events.lean ====
section
/-! DEFINITION. The events of the line: encoder advances, pleat-done, mark sensor, spindle inputs, splice made, zone samples, emergency
stop and drive fault, and the deadlines of the line clock. Each `exec` is one command's meaning. -/

namespace Sys2Proof.Machine

/-- The outcome of every command: the part goes on. -/
abbrev Result := Host.Outcome State Fault Refusal

/-- A command after which the head goes on at the end of its event (R66, R69). -/
def event (e : Env) (f : State → State) (s : State) : Result := .next (settle (f (arrive e s)))

/-! ### Encoders, pleat-done and marks (R41, R66, R67, R76, R139, R141) -/

/-- METERING_ADVANCE (R66). -/
def execMeteringAdvance (e : Env) (travel : Nat) (s : State) : Result := event e (meterTravel travel) s

/-- R66, R67: the results of the unit in flight taken. -/
def takeResults (rs : List Crease) (fl : Flight) (s : State) : State :=
  let read := readResults fl.unit.strokes.length rs
  let t := if fl.unit.fold then countFolds read s else s
  completeIfDone { t with head.flight := some { fl with results := some read } }

/-- R67: whether a pleat-done raises MISSED_FOLDS. -/
def State.missesRaise (s : State) (rs : List Crease) (fl : Flight) : Bool :=
  fl.unit.fold && s.head.panel.isSome && s.k.stopOnTwo &&
    (absentRun s.head.absent (readResults fl.unit.strokes.length rs)).2

/-- R66, R67: a pleat-done report taken for the unit in flight; one with no stroking unit in flight is discarded, and so is a second one for
a stroking unit whose pleat-done is already taken, of which R66 says nothing: DESIGN CHOICE (log entry 67). -/
def pleatTaken (rs : List Crease) (s : State) : State :=
  match s.head.flight with
  | none => { s with head.blade := [] }
  | some fl =>
    if fl.unit.strokes.isEmpty ∨ fl.results.isSome then { s with head.blade := [] }
    else
      let t := takeResults rs fl { s with head.blade := [] }
      if s.missesRaise rs fl then raiseHalt .missedFolds t else t

/-- R81, R82: a pleat-done that a cut unit still owed is discarded; the strokes of a unit drawn since stay commanded (log entries 35,
46). -/
def dropPleat (s : State) : State :=
  { s with
    head.late := { s.head.late with pleats := s.head.late.pleats - 1 }
    head.blade := if s.head.flight.any (fun fl => !fl.unit.strokes.isEmpty && fl.results.isNone) then s.head.blade else [] }

/-- R66, R67, R82: a pleat-done report. -/
def pleatReport (rs : List Crease) (s : State) : State :=
  if s.head.late.pleats = 0 then pleatTaken rs s else dropPleat s

/-- PLEAT_DONE (R67). -/
def execPleatDone (e : Env) (results : List Crease) (s : State) : Result := event e (pleatReport results) s

/-- R41: the RUNNING roll's U credited. -/
def creditRoll (len : Nat) (s : State) : State :=
  match s.runningRoll with
  | some r => s.mapRoll r.tag (fun x => { x with u := x.u + min len x.remaining })
  | none => s

/-- R41: whether a report brings the remaining length to 0. -/
def State.exhausts (s : State) (len : Nat) : Bool :=
  s.runningRoll.any (fun r => decide (0 < r.remaining) && decide (r.remaining ≤ len))

/-- R141: the accumulator limit stepped. -/
def stepLimit (s : State) : State :=
  let c := s.k.cap
  { s with line.limit :=
      if s.line.store < c / 4 then max s.line.range.min (s.line.limit - 2)
      else if c / 2 < s.line.store then min s.line.range.max (s.line.limit + 1)
      else s.line.limit }

/-- R139, R140, R141, R142: an advance taken into the store. -/
def storeAdvance (len : Nat) (s : State) : State :=
  let t := judgeLatch { s with line.store := min s.k.cap (s.line.store + len) }
  let u := recomputeSpeed (stepLimit t)
  { u with line.stall := if u.line.stall.isSome then some u.line.clock else none }

/-- R41, R153: the tail mark is set when an advance exhausts the outgoing roll of a press. -/
def markTail (out : Bool) (s : State) : State := if out && s.turret.seq == .pressing then { s with turret.tail := true } else s

/-- R41, R139: an unwind advance: the roll is credited, the store filled, and then OVERFILL and, with no press in progress, TAIL_OUT are
raised (log entry 12); the wishes are judged last. -/
def unwindReport (len : Nat) (s : State) : State :=
  let t := markTail (s.exhausts len) (storeAdvance len (creditRoll len s))
  let u := if s.k.cap < s.line.store + len then raiseHalt .overfill t else t
  changeWishes judgePoint (if s.exhausts len && s.turret.seq != .pressing then raiseHalt .tailOut u else u)

/-- UNWIND_ADVANCE (R41). -/
def execUnwindAdvance (e : Env) (len : Nat) (s : State) : Result := event e (unwindReport len) s

/-- R76, R78: a mark entered, and counted while COUNTING when it lies beyond the last start mark. -/
def enterMark (s : State) : State :=
  let p := s.head.f + s.k.q
  if Config.markLimit ≤ s.head.marks.length then s
  else
    { s with
      head.marks := s.head.marks ++ [p]
      head.counted :=
        if s.head.counting ∧ s.head.lastMark.getD 0 < (p : Int) then s.head.counted + 1 else s.head.counted }

/-- MARK_SENSOR (R76). -/
def execMarkSensor (e : Env) (s : State) : Result := event e enterMark s

/-! ### Spindles and the press (R148, R149, R154) -/

/-- R148: the effect of a spindle ready input's change to active. -/
def spindleUp (i : SpindleId) (s : State) : State :=
  if (s.spindle i).state = .loaded then
    triggerTest (publish ((s.mapRoll (s.spindleTag i) (fun r => { r with state := .prepared })).mapSpindle i
      (fun x => { x with state := .ready })))
  else s

/-- R148: a level of a spindle ready input. -/
def spindleInput (i : SpindleId) (level : Bool) (s : State) : State :=
  let t := s.mapSpindle i (fun x => { x with readyIn := level })
  if level && !(s.spindle i).readyIn then spindleUp i t else t

/-- SPINDLE_READY (R148). -/
def execSpindleReady (e : Env) (i : SpindleId) (level : Bool) (s : State) : Result := event e (spindleInput i level) s

/-- R149: the effect of a core removed input's change to active. -/
def coreOff (i : SpindleId) (s : State) : State :=
  if (s.spindle i).state = .core then
    let tag := s.spindleTag i
    endRollRetirement tag ((s.mapRoll tag (fun r => { r with spindle := none })).mapSpindle i emptied)
  else s

/-- R149: a level of a core removed input. -/
def coreInput (i : SpindleId) (level : Bool) (s : State) : State :=
  let t := s.mapSpindle i (fun x => { x with coreIn := level })
  if level && !(s.spindle i).coreIn then coreOff i t else t

/-- CORE_REMOVED (R149). -/
def execCoreRemoved (e : Env) (i : SpindleId) (level : Bool) (s : State) : Result := event e (coreInput i level) s

/-- R154: a level of the splice-made input; its change to active completes the splice while PRESSING and is discarded otherwise. -/
def spliceInput (level : Bool) (s : State) : State :=
  let t := { s with turret.splice := level }
  if level && !s.turret.splice && s.turret.seq == .pressing then
    match s.turret.outgoing, s.turret.incoming with
    | some o, some i => spliceDone o i t
    | _, _ => t
  else t

/-- SPLICE_MADE (R154). -/
def execSpliceMade (e : Env) (level : Bool) (s : State) : Result := event e (spliceInput level) s

/-! ### Zone samples (R109 to R111) -/

/-- R109, R110: the halt cause of a sample raised, when there is one. -/
def raiseCause (c : Option HaltCause) (s : State) : State :=
  match c with
  | some x => raiseHalt x s
  | none => s

/-- R111: a zone sample worked: classified (its cause raised with it, log entry 24), credited, regulated, judged, and the ceiling
published. -/
def sampleReport (z : ZoneId) (x : Sample) (s : State) : State :=
  let t := raiseCause (s.sampleCause z x) (classifyZone z x s)
  publish (testRun (reportReady (workZone z (s.overTemp z x) t)))

/-- ZONE_SAMPLE (R111). -/
def execZoneSample (e : Env) (z : ZoneId) (x : Sample) (s : State) : Result := event e (sampleReport z x) s

/-! ### Emergency stop and drive fault (R135) -/

/-- R135: a level of the emergency-stop input. -/
def estopInput (level : Bool) (s : State) : State :=
  let t := { s with line.estop := level }
  if level && !s.line.estop then raiseHalt .estop t else t

/-- EMERGENCY_STOP_INPUT (R135). -/
def execEmergencyStop (e : Env) (level : Bool) (s : State) : Result := event e (estopInput level) s

/-- R135: a level of the drive-fault input. -/
def driveInput (level : Bool) (s : State) : State :=
  let t := { s with line.drive := level }
  if level && !s.line.drive then raiseHalt .driveFault t else t

/-- DRIVE_FAULT_INPUT (R135). -/
def execDriveFault (e : Env) (level : Bool) (s : State) : Result := event e (driveInput level) s

/-! ### Deadlines (R142, R129, R156, R114) -/

/-- R142: whether the feed-stall deadline is reached. -/
def State.stallDue (s : State) : Bool :=
  s.line.stall.any (fun c => decide (Config.stallTime ≤ elapsed s.line.clock c))

/-- R142: the feed-stall deadline taken; before it is reached nothing happens (log entry 2). -/
def stallExpiry (s : State) : State := if s.stallDue then raiseHalt .feedStall s else s

/-- FEED_STALL (R142). -/
def execFeedStall (e : Env) (s : State) : Result := event e stallExpiry s

/-- R129: which of the four conditions of RUN are unmet, bit 0 the first. -/
def State.unmet (s : State) : Nat :=
  bit (!s.head.aligned) 0 + bit s.runningRoll.isNone 1 + bit (!s.line.zonesReady) 2 +
    bit (decide (s.line.ceiling < s.line.range.min)) 3

/-- R129: whether the start deadline is reached. -/
def State.startDue (s : State) : Bool :=
  s.line.state == .starting && s.line.deadline.any (fun d => decide (60000 * s.k.startTimeout ≤ d))

/-- R129: the start deadline expires. -/
def startExpiry (s : State) : State :=
  if s.startDue then
    let t := enterLine .standby s
    concludeWatch t.line.startWatch (refusal .heatTimeout (senseVals [natVal s.unmet, natVal s.line.ceiling]))
      { t with line.startWatch := none }
  else s

/-- START_DEADLINE_EXPIRY (R129). -/
def execStartExpiry (e : Env) (s : State) : Result := event e startExpiry s

/-- R156: whether the press deadline is reached. -/
def State.pressDue (s : State) : Bool :=
  s.turret.seq == .pressing && s.turret.press.any (fun d => d.reached s.line.clock)

/-- R156: the press deadline expires. -/
def pressExpiry (s : State) : State := if s.pressDue then pressTimeout s else s

/-- SPLICE_TIMEOUT (R156). -/
def execSpliceTimeout (e : Env) (s : State) : Result := event e pressExpiry s

/-- R114: a purge that is due begins. -/
def purgeStart (z : ZoneId) (s : State) : State :=
  if (s.zone z).purgeDue s.line.clock then s.mapZone z (fun y => y.beginPurge s.line.clock) else s

/-- PURGE_BEGIN (R114). -/
def execPurgeBegin (e : Env) (z : ZoneId) (s : State) : Result := event e (purgeStart z) s

/-- R114: a drain open for its time closes. -/
def purgeStop (z : ZoneId) (s : State) : State :=
  if (s.zone z).drainOver s.line.clock then s.mapZone z (fun y => { y with purging := false }) else s

/-- PURGE_END (R114). -/
def execPurgeEnd (e : Env) (z : ZoneId) (s : State) : Result := event e (purgeStop z) s

end Sys2Proof.Machine
end

