-- ==== Sys2Proof/Machine/Window.lean ====
section
/-! DEFINITION. Power-on, the control window (R161), bootstrap (R163, R164), the scan (R165), aborts (R173, R174), interface reset (R175) and
the taking of a request (R166). -/

namespace Sys2Proof.Machine

/-! ### Power-on (R126) -/

/-- POWER_ON: every block at its power-on values; shared memory and the waiting commands are not the part's. -/
def execPowerOn (e : Env) (l : Levels) (s : State) : Result :=
  let t := arrive e s
  .next (State.poweredOn l t.mem t.bus t.pending)

/-! ### Bootstrap (R163, R164) -/

/-- R163: a write of an address to the bootstrap port. -/
def bootstrapWrite (addr : U32) (s : State) : State :=
  if s.port.state = .uninitialised ∨ s.port.state = .initFailed then
    let t := { s with port.initBlock := some addr.toNat, port.fault := .none, port.ringFault := none }
    if addr = 0 then { t with port.state := .initFailed, port.fault := .badBlock, port.outcome := .none, port.attention := true }
    else { t with port.state := .initialising }
  else s

/-- BOOTSTRAP_WRITE (R163). -/
def execBootstrapWrite (e : Env) (addr : U32) (s : State) : Result := .next (bootstrapWrite addr (arrive e s))

/-- R164: a bootstrap that fails; no constant is applied (log entry 22). -/
def initFails (f : PortFault) (s : State) : State :=
  { s with port.state := .initFailed, port.fault := f, port.outcome := .none, port.attention := true }

/-- R164, step 2: rings that pass. -/
def ringsOk (a n b m : Nat) : Bool :=
  a != 0 && b != 0 && decide (4 ≤ n) && decide (n ≤ 64) && decide (4 ≤ m) && decide (m ≤ 64) &&
    (decide (a + 8 * n ≤ b) || decide (b + 8 * m ≤ a))

/-- R164, step 3: the constants of the block judged (log entry 32 for a pending arrival). -/
def judgeConsts (flag : Bool) (k : Consts) (s : State) : State :=
  if ¬ flag then { s with port.outcome := .absent }
  else if s.line.state ≠ .off then { s with port.outcome := .kept }
  else if s.head.arrival.isSome then { s with port.outcome := .refused 0 }
  else
    match constsFirstFail k s.line.store with
    | some f => { s with port.outcome := .refused f.row }
    | none => { applyConsts k s with port.outcome := .applied }

/-- R164: the interface READY, with its rings taken up. -/
def ready (a n b m : Nat) (s : State) : State :=
  { s with
    port.state := .ready, port.fault := .none, port.ringFault := none, port.attention := true
    port.out := some ⟨a, n, n - 1⟩, port.ret := some ⟨b, m, 0⟩
    port.scan := .idle, port.rescan := false, port.examined := 0, port.table := [], port.posting := [] }

/-- R164: the reading of the initialisation block ends. -/
def bootstrapEnd (s : State) : State :=
  if s.port.state ≠ .initialising then s
  else
    match s.load (addrs (orZero s.port.initBlock) 52) with
    | none => initFails .busFault s
    | some bs =>
      let a := (u32At bs 0x00).toNat
      let n := (u16At bs 0x04).toNat
      let m := (u16At bs 0x06).toNat
      let b := (u32At bs 0x08).toNat
      if ringsOk a n b m then
        ready a n b m (judgeConsts (bitSet (byteAt bs 0x0C).toNat 0) (parseConsts (bs.drop 0x10)) s)
      else initFails .badRing s

/-- BOOTSTRAP_END (R164). -/
def execBootstrapEnd (e : Env) (s : State) : Result := event e bootstrapEnd s

/-! ### Strobe, attention, reset (R161, R165, R171, R175) -/

/-- R165: a scan strobe in READY, and the return slot examined (R171). -/
def strobe (s : State) : State :=
  if s.port.state = .ready then
    examineReturn
      (if s.port.scan = .idle then { s with port.scan := .active, port.examined := 0 }
       else { s with port.rescan := true })
  else s

/-- SCAN_STROBE (R165). -/
def execScanStrobe (e : Env) (s : State) : Result := .next (strobe (arrive e s))

/-- R161, R171: attention lowered outside INITIALISING, and in READY the return slot examined. -/
def lowerAttention (s : State) : State :=
  if s.port.state = .initialising then s
  else
    let t := { s with port.attention := false }
    if s.port.state = .ready then examineReturn t else t

/-- ATTENTION_WRITE (R171). -/
def execAttentionWrite (e : Env) (s : State) : Result := .next (lowerAttention (arrive e s))

/-- R175: an interface reset. -/
def resetPort (s : State) : State :=
  let t := dropRequests s
  { t with
    port.state := .uninitialised, port.fault := .none, port.ringFault := none, port.outcome := .none
    port.initBlock := none, port.out := none, port.ret := none, port.scan := .idle, port.rescan := false
    port.examined := 0, port.attention := false }

/-- INTERFACE_RESET (R175). -/
def execInterfaceReset (e : Env) (s : State) : Result := .next (resetPort (arrive e s))

/-! ### Aborts (R173, R174) -/

/-- The buffer that serves an entry. -/
def State.bufferOf (s : State) (no : Nat) : Option BufferId :=
  if s.lib.bufA.any (fun f => f.entry == no) then some .a
  else if s.lib.bufB.any (fun f => f.entry == no) then some .b
  else none

/-- Nothing frees. -/
def freesNothing : Await → Bool := fun _ => false

/-- R7: an abort of a fetch; what it frees is retried. -/
def abortFetch (no : Nat) (s : State) : State × (Await → Bool) :=
  match s.bufferOf no with
  | some buf =>
    match s.buffer buf with
    | some f => (conclude no (abortedAnswer 3) (releaseFetch buf s), freesFetch f.slot)
    | none => (s, freesNothing)
  | none => (s, freesNothing)

/-- R17: an abort of a Retire Pattern returns its slot to ACTIVE. -/
def abortRetire (no : Nat) (s : State) : State :=
  conclude no (abortedAnswer 3)
    { s with lib.slots := s.lib.slots.map (fun x =>
        if x.watch == some no then { x with state := .active, watch := none } else x) }

/-- R61: an abort of a notify watch writes the counts as they stand; the order goes on. -/
def abortNotify (no : Nat) (s : State) : State :=
  match s.orders.find? (fun o => o.watch == some no) with
  | some o => conclude no (countsAnswer o (abortedAnswer 3)) (s.mapOrder o.tag (fun x => { x with watch := none }))
  | none => conclude no (abortedAnswer 3) s

/-- R47: an abort of a Retire Roll; the roll stays SPENT. -/
def abortRollRetire (no : Nat) (s : State) : State :=
  conclude no (abortedAnswer 3)
    { s with turret.rolls := s.turret.rolls.map (fun r =>
        if r.watch == some no then { r with watch := none } else r) }

/-- R130: an abort of a Start: the line to STANDBY from STARTING, or still in HOLD with the deadline disarmed. -/
def abortOfStart (no : Nat) (s : State) : State :=
  let t := conclude no (abortedAnswer 3) { s with line.startWatch := none }
  if t.line.state = .starting then enterLine .standby t else { t with line.deadline := none }

/-- R86: an abort of an Align Blade. -/
def abortAlign (s : State) : State :=
  match s.head.align with
  | some a => finishAlign a (abortedAnswer 3) (misalign s)
  | none => s

/-- R159: an abort of a Splice Now before the trigger clears the request wish. -/
def abortSpliceNow (no : Nat) (s : State) : State :=
  conclude no (abortedAnswer 3)
    (changeWishes (fun t => { t with turret.request := false }) { s with turret.now := none })

/-- R174: an abort that finds its target RUNNING; none where the owner refuses. -/
def abortRunning (no : Nat) (c : Call) (s : State) : Option (State × (Await → Bool)) :=
  match c with
  | .definePattern => some (abortFetch no s)
  | .amendPattern => some (abortFetch no s)
  | .retirePattern => some (abortRetire no s, freesNothing)
  | .placeOrder _ => some (abortNotify no s, freesNothing)
  | .retireRoll => some (abortRollRetire no s, freesNothing)
  | .awaitPanelExit =>
    some (conclude no (abortedAnswer 3) { s with web.awaits := s.web.awaits.filter (fun x => x != no) }, freesNothing)
  | .start => some (abortOfStart no s, freesNothing)
  | .alignBlade => some (abortAlign s, freesNothing)
  | .spliceNow => if s.turret.seq = .pressing then none else some (abortSpliceNow no s, freesNothing)
  | _ => none

/-- R174: an abort acting on a held entry. -/
def abortHeld (x : Entry) (s : State) : Option (State × (Await → Bool)) :=
  match x.stage, x.req with
  | .taken, _ => some (concludeUnread x.no x.block (abortedAnswer 1) s, freesNothing)
  | .waiting _, _ => some (conclude x.no (abortedAnswer 2) s, freesNothing)
  | .running, some (_, c) => abortRunning x.no c s
  | _, _ => none

/-- R171, R173: the result of an abort posted. -/
def abortResult (no : Nat) (c : Code) (target : Nat) (s : State) : State :=
  enqueue no [⟨no, true, c.value, target, true⟩] s

/-- The address and the state of an outbound slot; none where a read of it faults. All eight bytes of the slot are read: DESIGN CHOICE
(log entry 60). -/
def State.readSlot (s : State) (a : Nat) : Option (Nat × Nat) :=
  (s.load (addrs a 8)).map (fun bs => ((u32At bs 0).toNat, (byteAt bs 4).toNat))

/-- R173, step 3: the outbound ring searched for a POSTED slot naming the target (log entry 21). -/
def searchRing (no target : Nat) (r : Ring) : List Nat → State → State
  | [], s => abortResult no .notFound target s
  | i :: rest, s =>
    let a := r.addr + 8 * i
    match s.readSlot a with
    | none => ringFault false i s
    | some (block, st) =>
      if st = 1 ∧ block = target then
        if s.storeOk [(a + 4, 0)] then
          let t := (s.store [(a + 4, 0)]).store [(target + 3, b8 Code.aborted.value)]
          enqueue no [⟨no, false, Code.aborted.value, target, false⟩, ⟨no, true, Code.found.value, target, true⟩] t
        else ringFault false i s
      else searchRing no target r rest s

/-- R173: an abort entry decided by searching for its target. -/
def decideAbort (no target : Nat) (r : Ring) (s : State) : State :=
  let mine := fun (x : Entry) => !x.abort && x.block == target
  match s.port.table.find? (fun x => mine x && x.stage != .posting) with
  | some x =>
    match abortHeld x s with
    | some (t, frees) => retryFor frees (abortResult no .found target t)
    | none => abortResult no .notAbortable target s
  | none =>
    if s.port.table.any mine then abortResult no .notFound target s
    else searchRing no target r ((List.range r.count).map (fun i => (r.pos + 1 + i) % r.count)) s

/-! ### The scan (R165) -/

/-- R165: a slot passed; a round with no take ends the scan or, with the rescan mark, begins afresh. -/
def passSlot (r : Ring) (s : State) : State :=
  if s.port.examined + 1 < r.count then { s with port.examined := s.port.examined + 1 }
  else if s.port.rescan then { s with port.examined := 0, port.rescan := false }
  else { s with port.examined := 0, port.scan := .idle }

/-- R166, step 1: whether an entry of the table holds a block address (log entry 39). -/
def State.holdsBlock (s : State) (block : Nat) : Bool := s.port.table.any (fun y => !y.abort && y.block == block)

/-- R165: a POSTED or ABORT slot taken: it is written FREE and entered, and an abort is decided in the event. A block that another entry
holds is refused as DUPLICATE before anything of it is read (R166, step 1). -/
def takeSlot (r : Ring) (i block : Nat) (abort : Bool) (s : State) : State :=
  let a := r.addr + 8 * i
  if s.storeOk [(a + 4, 0)] then
    let r' := { r with pos := i }
    let no := s.port.nextNo
    let t := enterEntry block abort { s.store [(a + 4, 0)] with port.out := some r', port.examined := 0 }
    if abort then decideAbort no block r' t
    else if s.holdsBlock block then concludeDuplicate no block t
    else t
  else ringFault false i s

/-- R165: one examination of an ACTIVE scan. -/
def examineSlot (s : State) : State :=
  match s.port.state, s.port.scan, s.port.out with
  | .ready, .active, some r =>
    let i := (r.pos + 1 + s.port.examined) % r.count
    match s.readSlot (r.addr + 8 * i) with
    | none => ringFault false i s
    | some (block, st) =>
      if st = 1 ∨ st = 2 then
        if Config.tableSize ≤ s.port.table.length then { s with port.scan := .suspended }
        else takeSlot r i block (st == 2) s
      else passSlot r s
  | _, _, _ => s

/-- SLOT_EXAMINATION (R165). -/
def execSlotExamination (e : Env) (s : State) : Result := event e examineSlot s

/-! ### Taking a request (R166, R167) -/

/-- The oldest taken entry of a block whose reading has not ended. -/
def State.takenEntry (s : State) (block : Nat) : Option Entry :=
  s.port.table.find? (fun x => !x.abort && x.block == block && x.stage == .taken && x.req.isNone)

/-- R167: the index of the first entry of length 0 of a segment list, counted from 0: DESIGN CHOICE (log entry 56). -/
def zeroSeg (gs : List DataSeg) : Option Nat := gs.findIdx? (fun g => g.len == 0)

/-- R167: a segment list refused. For a count outside 1..16 the count is given as the value, where the rule names none: DESIGN CHOICE (log
entry 64). -/
def dataFail (d : DataArea) : Option Answer :=
  match d with
  | .contiguous _ _ => none
  | .segmented gs =>
    if gs.length = 0 ∨ 16 < gs.length then some (refusal .segmentList (senseField lenField [natVal gs.length]))
    else (zeroSeg gs).map (fun i => refusal .segmentList (senseVals [natVal i]))

/-- R166, step 7: the answer to a fifth Await Panel Exit. -/
def limitAnswer (s : State) : Answer := refusal .limit (senseVals (s.heldAwaits.map (fun x => natVal x.block)))

/-- Whether a request has a data area (R177). -/
def callHasData (c : Call) : Bool := kindHasData (encodeCall c).1

/-- R166, steps 3, 6 and 7, and the dispatch of step 8. A request refused here is not held as what it asks (R166, step 7). -/
def admitRequest (no : Nat) (q : Req) (c : Call) (decision : State → State) (s : State) : State :=
  if ¬ senseOk q.sense.toNat then concludeWith no q (refusal .badSenseLength Sense.none) s
  else
    match if callHasData c then dataFail q.data else none with
    | some a => concludeWith no q a s
    | none =>
      if c = .awaitPanelExit ∧ Config.awaitLimit ≤ s.heldAwaits.length then concludeWith no q (limitAnswer s) s
      else decision (setReq no q c s)

/-- R166: the reading of a taken block ends, its contents being the given request (log entry 6); with no such taken entry nothing
happens. -/
def serve (q : Req) (c : Call) (decision : Nat → State → State) (s : State) : State :=
  match s.takenEntry q.block.toNat with
  | none => s
  | some x => admitRequest x.no q c (decision x.no) s

/-- A request row: the request served, and the head going on. -/
def request (e : Env) (q : Req) (c : Call) (decision : Nat → State → State) (s : State) : Result :=
  .next (settle (serve q c decision (arrive e s)))

/-- A request row of a request that only reads. -/
def query (e : Env) (q : Req) (c : Call) (decision : Nat → State → State) (s : State) : Result :=
  .next (serve q c decision (arrive e s))

/-- R166, R167: the data area a header describes; the list of a segmented one is read. For a count outside 1..16 the count is given as the
value of SEGMENT_LIST, where the rule names none: DESIGN CHOICE (log entry 64). -/
def State.readData (s : State) (h : Header) : Except Answer DataArea :=
  if kindHasData h.kind ∧ h.segmented then
    if h.len = 0 ∨ 16 < h.len.toNat then .error (refusal .segmentList (senseField lenField [natVal h.len.toNat]))
    else
      match s.load (addrs h.addr.toNat (8 * h.len.toNat)) with
      | some bs => .ok (.segmented (parseSegs bs h.len.toNat))
      | none => .error (refusal .busFault Sense.none)
  else .ok (.contiguous h.addr h.len)

/-- R166: the block of a taken entry read and checked from memory. BAD_KIND names field 00h of the header and gives the kind found as its
value, where R166 and R177 name neither: DESIGN CHOICE (log entry 64). -/
def readBlock (x : Entry) (s : State) : State :=
  match s.load (addrs x.block 32) with
  | none => concludeUnread x.no x.block (refusal .busFault Sense.none) s
  | some bs =>
    let h := parseHeader bs
    let q : Req := ⟨BitVec.ofNat 32 x.block, h.sense, h.key, .contiguous h.addr h.len⟩
    if ¬ senseOk h.sense.toNat then concludeWith x.no q (refusal .badSenseLength Sense.none) s
    else if ¬ kindNamed h.kind then
      concludeWith x.no q (refusal .badKind (senseField (fieldId 1 0x00) [natVal h.kind])) s
    else
      match s.load (addrs (x.block + 0x20) 32) with
      | none => concludeWith x.no q (refusal .busFault Sense.none) s
      | some ps =>
        match s.readData h, decodeCall h.kind h.option ps with
        | .error a, _ => concludeWith x.no q a s
        | .ok d, some c => admitRequest x.no { q with data := d } c (decideCall x.no { q with data := d } c) s
        | .ok _, none => concludeWith x.no q (refusal .badKind Sense.none) s

/-- R166: the reading of a taken block ends; with no such taken entry nothing happens (log entry 6). -/
def blockRead (block : U32) (s : State) : State :=
  match s.takenEntry block.toNat with
  | none => s
  | some x => readBlock x s

/-- REQUEST_BLOCK_READ (R166). -/
def execRequestBlockRead (e : Env) (block : U32) (s : State) : Result := event e (blockRead block) s

/-! ### The end of a page fetch (R7) -/

/-- R7, R169: the fetch of a buffer ends, and the requests waiting for what it frees are retried. -/
def fetchDone (buf : BufferId) (s : State) : State :=
  match s.buffer buf with
  | none => s
  | some f => retryFor (freesFetch f.slot) (endFetch buf s)

/-- PAGE_FETCH_DONE (R7). -/
def execPageFetchDone (e : Env) (buf : BufferId) (s : State) : Result := event e (fetchDone buf) s

end Sys2Proof.Machine
end

