-- ==== Sys2Proof/Machine/Rows.lean ====
section
/-! DEFINITION. The request rows of spec/opcode_table.json: each is the event in which the reading of a taken block ends, its contents given
by the operands (log entry 6), decided by the rule its docstring names. -/

namespace Sys2Proof.Machine

/-- DEFINE_PATTERN (R10). -/
def execDefinePattern (e : Env) (q : Req) (s : State) : Result :=
  request e q .definePattern (fun no => decideDefine no q) s

/-- AMEND_PATTERN (R11, R12). -/
def execAmendPattern (e : Env) (q : Req) (s : State) : Result :=
  request e q .amendPattern (fun no => decideAmend no q) s

/-- READ_PATTERN (R14). -/
def execReadPattern (e : Env) (q : Req) (alternate : Bool) (s : State) : Result :=
  query e q (.readPattern alternate) (fun no => decideReadPattern no q alternate) s

/-- RETIRE_PATTERN (R15). -/
def execRetirePattern (e : Env) (q : Req) (s : State) : Result :=
  request e q .retirePattern (fun no => decideRetirePattern no q) s

/-- MEASURE_PATTERN (R32, R33). -/
def execMeasurePattern (e : Env) (q : Req) (args : MeasureArgs) (s : State) : Result :=
  query e q (.measurePattern args) (fun no => decideMeasure no q args) s

/-- SET_FIBRE_CLASS (R35). -/
def execSetFibreClass (e : Env) (q : Req) (args : ClassArgs) (s : State) : Result :=
  request e q (.setFibreClass args) (fun no => decideSetClass no args) s

/-- CLEAR_FIBRE_CLASS (R36). -/
def execClearFibreClass (e : Env) (q : Req) (cls : U8) (s : State) : Result :=
  request e q (.clearFibreClass cls) (fun no => decideClearClass no cls) s

/-- READ_FIBRE_CLASS (R38). -/
def execReadFibreClass (e : Env) (q : Req) (cls : U8) (s : State) : Result :=
  query e q (.readFibreClass cls) (fun no => decideReadClass no cls) s

/-- REGISTER_ROLL (R43). -/
def execRegisterRoll (e : Env) (q : Req) (args : RollArgs) (s : State) : Result :=
  request e q (.registerRoll args) (fun no => decideRegister no q args) s

/-- AMEND_ROLL (R44, R45). -/
def execAmendRoll (e : Env) (q : Req) (args : AmendArgs) (s : State) : Result :=
  request e q (.amendRoll args) (fun no => decideAmendRoll no q args) s

/-- READ_ROLL (R46, R160). -/
def execReadRoll (e : Env) (q : Req) (s : State) : Result :=
  query e q .readRoll (fun no => decideReadRoll no q) s

/-- RETIRE_ROLL (R47). -/
def execRetireRoll (e : Env) (q : Req) (s : State) : Result :=
  request e q .retireRoll (fun no => decideRetireRoll no q) s

/-- PLACE_ORDER (R51, R53). -/
def execPlaceOrder (e : Env) (q : Req) (args : OrderArgs) (s : State) : Result :=
  request e q (.placeOrder args) (fun no => decidePlace no q args) s

/-- READ_ORDER (R62). -/
def execReadOrder (e : Env) (q : Req) (s : State) : Result :=
  query e q .readOrder (fun no => decideReadOrder no q) s

/-- CANCEL_ORDER (R59). -/
def execCancelOrder (e : Env) (q : Req) (cut : Bool) (s : State) : Result :=
  request e q (.cancelOrder cut) (fun no => decideCancel no q cut) s

/-- ALIGN_BLADE (R85). -/
def execAlignBlade (e : Env) (q : Req) (s : State) : Result :=
  request e q .alignBlade (fun no => decideAlign no) s

/-- READ_PANEL (R103). -/
def execReadPanel (e : Env) (q : Req) (s : State) : Result :=
  query e q .readPanel (fun no => decideReadPanel no q) s

/-- AWAIT_PANEL_EXIT (R99). -/
def execAwaitPanelExit (e : Env) (q : Req) (s : State) : Result :=
  request e q .awaitPanelExit (fun no => decideAwait no q) s

/-- RELEASE_PANEL (R102). -/
def execReleasePanel (e : Env) (q : Req) (s : State) : Result :=
  request e q .releasePanel (fun no => decideRelease no q) s

/-- READ_WEB_MAP (R104). -/
def execReadWebMap (e : Env) (q : Req) (s : State) : Result :=
  query e q .readWebMap (fun no => decideReadMap no q) s

/-- PURGE_WEB (R105). -/
def execPurgeWeb (e : Env) (q : Req) (s : State) : Result :=
  request e q .purgeWeb (fun no => decidePurge no) s

/-- SET_ZONES (R124). -/
def execSetZones (e : Env) (q : Req) (args : ZonesArgs) (s : State) : Result :=
  request e q (.setZones args) (fun no => decideSetZones no args) s

/-- READ_ZONES (R125). -/
def execReadZones (e : Env) (q : Req) (cells : Bool) (s : State) : Result :=
  query e q (.readZones cells) (fun no => decideReadZones no q cells) s

/-- ENERGISE (R127). -/
def execEnergise (e : Env) (q : Req) (s : State) : Result :=
  request e q .energise (fun no => decideEnergise no) s

/-- DE_ENERGISE (R127). -/
def execDeEnergise (e : Env) (q : Req) (s : State) : Result :=
  request e q .deEnergise (fun no => decideDeEnergise no) s

/-- THREAD (R128). -/
def execThread (e : Env) (q : Req) (s : State) : Result :=
  request e q .thread (fun no => decideThread no) s

/-- START (R129). -/
def execStart (e : Env) (q : Req) (s : State) : Result :=
  request e q .start (fun no => decideStart no) s

/-- STOP (R134). -/
def execStop (e : Env) (q : Req) (cut : Bool) (s : State) : Result :=
  request e q (.stop cut) (fun no => decideStop no cut) s

/-- HOLD (R133). -/
def execHold (e : Env) (q : Req) (s : State) : Result :=
  request e q .hold (fun no => decideHold no) s

/-- RESUME (R133). -/
def execResume (e : Env) (q : Req) (s : State) : Result :=
  request e q .resume (fun no => decideResume no) s

/-- CLEAR_HALT (R136). -/
def execClearHalt (e : Env) (q : Req) (s : State) : Result :=
  request e q .clearHalt (fun no => decideClearHalt no) s

/-- SET_SPEED (R137). -/
def execSetSpeed (e : Env) (q : Req) (speed : U16) (s : State) : Result :=
  request e q (.setSpeed speed) (fun no => decideSetSpeed no speed) s

/-- SET_RANGE (R137). -/
def execSetRange (e : Env) (q : Req) (range : U8) (s : State) : Result :=
  request e q (.setRange range) (fun no => decideSetRange no range) s

/-- SET_LINE_CONSTANTS (R143). -/
def execSetLineConstants (e : Env) (q : Req) (s : State) : Result :=
  request e q .setLineConstants (fun no => decideSetConsts no q) s

/-- READ_LINE_STATUS (R145). -/
def execReadLineStatus (e : Env) (q : Req) (constants : Bool) (s : State) : Result :=
  query e q (.readLineStatus constants) (fun no => decideReadStatus no q constants) s

/-- MOUNT_ROLL (R147). -/
def execMountRoll (e : Env) (q : Req) (spindle : U8) (s : State) : Result :=
  request e q (.mountRoll spindle) (fun no => decideMount no q spindle) s

/-- SPLICE_NOW (R158). -/
def execSpliceNow (e : Env) (q : Req) (s : State) : Result :=
  request e q .spliceNow (fun no => decideSpliceNow no) s

end Sys2Proof.Machine
end

