-- ==== Sys2Proof/Machine/Dispatch.lean ====
section
/-! DEFINITION. One arm per command. -/

namespace Sys2Proof.Machine

def exec (i : Instr) (s : State) : Host.Outcome State Fault Refusal :=
  match i with
  | .powerOn e levels => Sys2Proof.Machine.execPowerOn e levels s
  | .bootstrapWrite e addr => Sys2Proof.Machine.execBootstrapWrite e addr s
  | .bootstrapEnd e => Sys2Proof.Machine.execBootstrapEnd e s
  | .scanStrobe e => Sys2Proof.Machine.execScanStrobe e s
  | .attentionWrite e => Sys2Proof.Machine.execAttentionWrite e s
  | .interfaceReset e => Sys2Proof.Machine.execInterfaceReset e s
  | .slotExamination e => Sys2Proof.Machine.execSlotExamination e s
  | .requestBlockRead e block => Sys2Proof.Machine.execRequestBlockRead e block s
  | .definePattern e q => Sys2Proof.Machine.execDefinePattern e q s
  | .amendPattern e q => Sys2Proof.Machine.execAmendPattern e q s
  | .pageFetchDone e buffer => Sys2Proof.Machine.execPageFetchDone e buffer s
  | .readPattern e q alternate => Sys2Proof.Machine.execReadPattern e q alternate s
  | .retirePattern e q => Sys2Proof.Machine.execRetirePattern e q s
  | .measurePattern e q args => Sys2Proof.Machine.execMeasurePattern e q args s
  | .setFibreClass e q args => Sys2Proof.Machine.execSetFibreClass e q args s
  | .clearFibreClass e q cls => Sys2Proof.Machine.execClearFibreClass e q cls s
  | .readFibreClass e q cls => Sys2Proof.Machine.execReadFibreClass e q cls s
  | .registerRoll e q args => Sys2Proof.Machine.execRegisterRoll e q args s
  | .amendRoll e q args => Sys2Proof.Machine.execAmendRoll e q args s
  | .readRoll e q => Sys2Proof.Machine.execReadRoll e q s
  | .retireRoll e q => Sys2Proof.Machine.execRetireRoll e q s
  | .placeOrder e q args => Sys2Proof.Machine.execPlaceOrder e q args s
  | .readOrder e q => Sys2Proof.Machine.execReadOrder e q s
  | .cancelOrder e q cut => Sys2Proof.Machine.execCancelOrder e q cut s
  | .alignBlade e q => Sys2Proof.Machine.execAlignBlade e q s
  | .readPanel e q => Sys2Proof.Machine.execReadPanel e q s
  | .awaitPanelExit e q => Sys2Proof.Machine.execAwaitPanelExit e q s
  | .releasePanel e q => Sys2Proof.Machine.execReleasePanel e q s
  | .readWebMap e q => Sys2Proof.Machine.execReadWebMap e q s
  | .purgeWeb e q => Sys2Proof.Machine.execPurgeWeb e q s
  | .setZones e q args => Sys2Proof.Machine.execSetZones e q args s
  | .readZones e q cells => Sys2Proof.Machine.execReadZones e q cells s
  | .energise e q => Sys2Proof.Machine.execEnergise e q s
  | .deEnergise e q => Sys2Proof.Machine.execDeEnergise e q s
  | .thread e q => Sys2Proof.Machine.execThread e q s
  | .start e q => Sys2Proof.Machine.execStart e q s
  | .stop e q cut => Sys2Proof.Machine.execStop e q cut s
  | .hold e q => Sys2Proof.Machine.execHold e q s
  | .resume e q => Sys2Proof.Machine.execResume e q s
  | .clearHalt e q => Sys2Proof.Machine.execClearHalt e q s
  | .setSpeed e q speed => Sys2Proof.Machine.execSetSpeed e q speed s
  | .setRange e q range => Sys2Proof.Machine.execSetRange e q range s
  | .setLineConstants e q => Sys2Proof.Machine.execSetLineConstants e q s
  | .readLineStatus e q constants => Sys2Proof.Machine.execReadLineStatus e q constants s
  | .mountRoll e q spindle => Sys2Proof.Machine.execMountRoll e q spindle s
  | .spliceNow e q => Sys2Proof.Machine.execSpliceNow e q s
  | .meteringAdvance e travel => Sys2Proof.Machine.execMeteringAdvance e travel s
  | .pleatDone e results => Sys2Proof.Machine.execPleatDone e results s
  | .unwindAdvance e len => Sys2Proof.Machine.execUnwindAdvance e len s
  | .markSensor e => Sys2Proof.Machine.execMarkSensor e s
  | .spindleReady e spindle level => Sys2Proof.Machine.execSpindleReady e spindle level s
  | .coreRemoved e spindle level => Sys2Proof.Machine.execCoreRemoved e spindle level s
  | .spliceMade e level => Sys2Proof.Machine.execSpliceMade e level s
  | .zoneSample e zone sample => Sys2Proof.Machine.execZoneSample e zone sample s
  | .emergencyStopInput e level => Sys2Proof.Machine.execEmergencyStop e level s
  | .driveFaultInput e level => Sys2Proof.Machine.execDriveFault e level s
  | .feedStall e => Sys2Proof.Machine.execFeedStall e s
  | .startDeadlineExpiry e => Sys2Proof.Machine.execStartExpiry e s
  | .spliceTimeout e => Sys2Proof.Machine.execSpliceTimeout e s
  | .purgeBegin e zone => Sys2Proof.Machine.execPurgeBegin e zone s
  | .purgeEnd e zone => Sys2Proof.Machine.execPurgeEnd e zone s

end Sys2Proof.Machine
end

