-- ==== Sys2Proof/Safety.lean ====
section
/-! DEFINITION. The terms the statements use: when a request row reaches the block that owns it (R166), and what the part keeps true
in every step. Each invariant is one property of a state, named after the rule it comes from. -/

namespace Sys2Proof.Machine

/-! ### A request that reaches its owner (R166, R167) -/

/-- R166: in this command the reading of `x`, the taken entry of the request's block, ends, and the sense allocation, the data
description and the Await limit pass the port's checks. -/
def dispatches (e : Env) (q : Req) (c : Call) (s : State) (x : Entry) : Bool :=
  let t := arrive e s
  t.takenEntry q.block.toNat == some x && senseOk q.sense.toNat &&
    (!callHasData c || (dataFail q.data).isNone) &&
    (c != .awaitPanelExit || decide (t.heldAwaits.length < Config.awaitLimit))

/-- R166, step 8: the state in which the owning block decides the request of entry `x`. -/
def dispatched (e : Env) (q : Req) (c : Call) (s : State) (x : Entry) : State := setReq x.no q c (arrive e s)

/-- What came about outside before a command (log entry 1). -/
def commandEnv : Instr → Env
  | .powerOn e _ => e
  | .bootstrapWrite e _ => e
  | .bootstrapEnd e => e
  | .scanStrobe e => e
  | .attentionWrite e => e
  | .interfaceReset e => e
  | .slotExamination e => e
  | .requestBlockRead e _ => e
  | .definePattern e _ => e
  | .amendPattern e _ => e
  | .pageFetchDone e _ => e
  | .readPattern e _ _ => e
  | .retirePattern e _ => e
  | .measurePattern e _ _ => e
  | .setFibreClass e _ _ => e
  | .clearFibreClass e _ _ => e
  | .readFibreClass e _ _ => e
  | .registerRoll e _ _ => e
  | .amendRoll e _ _ => e
  | .readRoll e _ => e
  | .retireRoll e _ => e
  | .placeOrder e _ _ => e
  | .readOrder e _ => e
  | .cancelOrder e _ _ => e
  | .alignBlade e _ => e
  | .readPanel e _ => e
  | .awaitPanelExit e _ => e
  | .releasePanel e _ => e
  | .readWebMap e _ => e
  | .purgeWeb e _ => e
  | .setZones e _ _ => e
  | .readZones e _ _ => e
  | .energise e _ => e
  | .deEnergise e _ => e
  | .thread e _ => e
  | .start e _ => e
  | .stop e _ _ => e
  | .hold e _ => e
  | .resume e _ => e
  | .clearHalt e _ => e
  | .setSpeed e _ _ => e
  | .setRange e _ _ => e
  | .setLineConstants e _ => e
  | .readLineStatus e _ _ => e
  | .mountRoll e _ _ => e
  | .spliceNow e _ => e
  | .meteringAdvance e _ => e
  | .pleatDone e _ => e
  | .unwindAdvance e _ => e
  | .markSensor e => e
  | .spindleReady e _ _ => e
  | .coreRemoved e _ _ => e
  | .spliceMade e _ => e
  | .zoneSample e _ _ => e
  | .emergencyStopInput e _ => e
  | .driveFaultInput e _ => e
  | .feedStall e => e
  | .startDeadlineExpiry e => e
  | .spliceTimeout e => e
  | .purgeBegin e _ => e
  | .purgeEnd e _ => e

/-- What a request row asks: the description of its block, and the request (log entry 6). -/
def requestOf : Instr → Option (Req × Call)
  | .powerOn _ _ => none
  | .bootstrapWrite _ _ => none
  | .bootstrapEnd _ => none
  | .scanStrobe _ => none
  | .attentionWrite _ => none
  | .interfaceReset _ => none
  | .slotExamination _ => none
  | .requestBlockRead _ _ => none
  | .definePattern _ q => some (q, .definePattern)
  | .amendPattern _ q => some (q, .amendPattern)
  | .pageFetchDone _ _ => none
  | .readPattern _ q alternate => some (q, .readPattern alternate)
  | .retirePattern _ q => some (q, .retirePattern)
  | .measurePattern _ q args => some (q, .measurePattern args)
  | .setFibreClass _ q args => some (q, .setFibreClass args)
  | .clearFibreClass _ q cls => some (q, .clearFibreClass cls)
  | .readFibreClass _ q cls => some (q, .readFibreClass cls)
  | .registerRoll _ q args => some (q, .registerRoll args)
  | .amendRoll _ q args => some (q, .amendRoll args)
  | .readRoll _ q => some (q, .readRoll)
  | .retireRoll _ q => some (q, .retireRoll)
  | .placeOrder _ q args => some (q, .placeOrder args)
  | .readOrder _ q => some (q, .readOrder)
  | .cancelOrder _ q cut => some (q, .cancelOrder cut)
  | .alignBlade _ q => some (q, .alignBlade)
  | .readPanel _ q => some (q, .readPanel)
  | .awaitPanelExit _ q => some (q, .awaitPanelExit)
  | .releasePanel _ q => some (q, .releasePanel)
  | .readWebMap _ q => some (q, .readWebMap)
  | .purgeWeb _ q => some (q, .purgeWeb)
  | .setZones _ q args => some (q, .setZones args)
  | .readZones _ q cells => some (q, .readZones cells)
  | .energise _ q => some (q, .energise)
  | .deEnergise _ q => some (q, .deEnergise)
  | .thread _ q => some (q, .thread)
  | .start _ q => some (q, .start)
  | .stop _ q cut => some (q, .stop cut)
  | .hold _ q => some (q, .hold)
  | .resume _ q => some (q, .resume)
  | .clearHalt _ q => some (q, .clearHalt)
  | .setSpeed _ q speed => some (q, .setSpeed speed)
  | .setRange _ q range => some (q, .setRange range)
  | .setLineConstants _ q => some (q, .setLineConstants)
  | .readLineStatus _ q constants => some (q, .readLineStatus constants)
  | .mountRoll _ q spindle => some (q, .mountRoll spindle)
  | .spliceNow _ q => some (q, .spliceNow)
  | .meteringAdvance _ _ => none
  | .pleatDone _ _ => none
  | .unwindAdvance _ _ => none
  | .markSensor _ => none
  | .spindleReady _ _ _ => none
  | .coreRemoved _ _ _ => none
  | .spliceMade _ _ => none
  | .zoneSample _ _ _ => none
  | .emergencyStopInput _ _ => none
  | .driveFaultInput _ _ => none
  | .feedStall _ => none
  | .startDeadlineExpiry _ => none
  | .spliceTimeout _ => none
  | .purgeBegin _ _ => none
  | .purgeEnd _ _ => none

/-- The requests that only read (R14, R33, R38, R46, R62, R103, R104, R125, R145): they call on no block to go on. -/
def readsOnly : Call → Bool
  | .definePattern => false
  | .amendPattern => false
  | .readPattern _ => true
  | .retirePattern => false
  | .measurePattern _ => true
  | .setFibreClass _ => false
  | .clearFibreClass _ => false
  | .readFibreClass _ => true
  | .registerRoll _ => false
  | .amendRoll _ => false
  | .readRoll => true
  | .retireRoll => false
  | .placeOrder _ => false
  | .readOrder => true
  | .cancelOrder _ => false
  | .alignBlade => false
  | .readPanel => true
  | .awaitPanelExit => false
  | .releasePanel => false
  | .readWebMap => true
  | .purgeWeb => false
  | .setZones _ => false
  | .readZones _ => true
  | .energise => false
  | .deEnergise => false
  | .thread => false
  | .start => false
  | .stop _ => false
  | .hold => false
  | .resume => false
  | .clearHalt => false
  | .setSpeed _ => false
  | .setRange _ => false
  | .setLineConstants => false
  | .readLineStatus _ => true
  | .mountRoll _ => false
  | .spliceNow => false

/-! ### What every step keeps -/

/-- The fixed tables have their sizes: 48 slots (R1), 8 fibre classes (R34), 4 zones (R107), 64 heat cells (R116). -/
def State.shaped (s : State) : Prop :=
  s.lib.slots.length = 48 ∧ s.turret.classes.length = 8 ∧ s.chest.zones.length = 4 ∧ s.chest.cells.length = 64

/-- R5: slot 0 is ACTIVE, protected and holds the trial pattern on both pages, page A live; no page fetch is for it. -/
def State.trialKept (s : State) : Prop :=
  (∃ x, s.lib.slots[0]? = some x ∧ x.state = .active ∧ x.pageA = some trialPage ∧ x.pageB = some trialPage ∧
    x.live = some .a ∧ x.flip = false ∧ x.prot = true) ∧
  (∀ f, s.lib.bufA = some f → f.slot ≠ 0) ∧ (∀ f, s.lib.bufB = some f → f.slot ≠ 0)

/-- R139: the store lies within 0..C. -/
def State.storeWithin (s : State) : Prop := ∀ k, s.line.consts = some k → s.line.store ≤ k.cap

/-- R126: commanded speed and accumulator limit lie within the range. -/
def State.speedsInRange (s : State) : Prop :=
  s.line.range.min ≤ s.line.commanded ∧ s.line.commanded ≤ s.line.range.max ∧
    s.line.range.min ≤ s.line.limit ∧ s.line.limit ≤ s.line.range.max

/-- R138: the effective speed is the least of its four terms, and the speed reference is the one its line state drives. -/
def State.speedDriven (s : State) : Prop :=
  s.line.effective = min (min s.line.commanded s.line.range.max) (min s.line.ceiling s.line.limit) ∧
    s.line.speedRef = match s.line.state with
      | .run => s.line.effective
      | .stopping => s.line.effective
      | .thread => s.line.range.min
      | _ => 0

/-- R160, R140: the press command output is on exactly while the sequence is PRESSING, and the unwind output is STOP throughout a
press and in a line state in which the unwind may not run. -/
def State.pressDriven (s : State) : Prop :=
  s.turret.pressOut = (s.turret.seq == .pressing) ∧
    (s.turret.seq = .pressing ∨ s.line.state.moving = false ∨ s.line.latchShut = true → s.line.unwind = false)

/-- R41: no roll has unwound more than its declared length. -/
def State.rollsWithin (s : State) : Prop := ∀ r ∈ s.turret.rolls, r.u ≤ r.declared

/-- R39, R43: the tags of the roll table are distinct. -/
def State.rollsDistinct (s : State) : Prop := (s.turret.rolls.map Roll.tag).Nodup

/-- R168: the held-request table holds at most 16 entries. -/
def State.tableWithin (s : State) : Prop := s.port.table.length ≤ 16

/-- R63: the head state is the one its table gives for the line state and the head's own work. -/
def State.headFollows (s : State) : Prop :=
  s.head.state = match s.line.state with
    | .run => if s.head.panel.isSome then .forming else .flat
    | .stopping => if s.head.panel.isSome then .forming else .flat
    | .thread => if s.head.align.isSome then .aligning else .flat
    | _ => .retracted

/-- R131: a line in HOLD has a hold reason; one in OFF, STANDBY, STARTING, RUN or HALT has none. -/
def State.holdsFit (s : State) : Prop :=
  match s.line.state with
  | .hold => s.line.holds ≠ Holds.empty
  | .thread => True
  | .stopping => True
  | _ => s.line.holds = Holds.empty

/-- R126, R135, R136: a halt cause stands exactly in HALT, and outside HALT the halt set is empty. -/
def State.haltsFit (s : State) : Prop :=
  (s.line.cause.isSome ↔ s.line.state = .halt) ∧ (s.line.state ≠ .halt → s.line.halts = Halts.empty)

/-- Nothing is held for the line computer: the table and the posts are empty, no ring is known, no scan runs, no fetch is in progress, and no
record, list or line operation names a request. -/
def State.nothingHeld (s : State) : Prop :=
  (s.port.table = [] ∧ s.port.posting = [] ∧ s.port.out = none ∧ s.port.ret = none ∧ s.port.scan = .idle ∧ s.port.rescan = false) ∧
  (s.lib.bufA = none ∧ s.lib.bufB = none ∧ ∀ x ∈ s.lib.slots, x.busy = false ∧ x.watch = none) ∧
  (∀ o ∈ s.orders, o.watch = none) ∧
  ((∀ a, s.head.align = some a → a.entry = none) ∧ s.web.awaits = [] ∧ s.line.stopWatches = [] ∧ s.line.startWatch = none) ∧
  (s.turret.now = none ∧ ∀ r ∈ s.turret.rolls, r.watch = none)

/-- R162, R165, R172, R175: outside READY nothing is held. What an interface reset or a ring fault drops stays dropped, also in the rest of
the event in which a post met the fault. -/
def State.heldInReady (s : State) : Prop := s.port.state ≠ .ready → s.nothingHeld

/-- What the part keeps true in every step, together: shared memory in its canonical form (log entry 3) and the invariants above. -/
structure Inv (s : State) : Prop where
  mem : s.mem.wf = true
  shape : s.shaped
  trial : s.trialKept
  store : s.storeWithin
  range : s.speedsInRange
  speed : s.speedDriven
  press : s.pressDriven
  rolls : s.rollsWithin
  tags : s.rollsDistinct
  table : s.tableWithin
  held : s.heldInReady
  head : s.headFollows
  holds : s.holdsFit
  halts : s.haltsFit

end Sys2Proof.Machine
end

