-- ==== Sys2Proof/Certificates/Slice0/Obligations.lean ====
section
/-! DEFINITION. The statements for the provers. `dispatches e q c s x` says that in this command the request of entry `x` reaches the
block that owns it (R166); `u` is then the state in which it is decided. `conclude` writes and posts a completion and `settle` is the
end of an event, in which the head goes on (their own statements below). The fields and the values of a sense record follow
11_formats.md and the refusing rule; where these leave them open they are the model's choice (log entry 10). -/

open Sys2Proof Sys2Proof.Machine

/-! ### The queue, reset and power-on -/

/-- One step runs the command at the front of the queue with the queue's rest. -/
def Obligations.StepRunsTheFrontCommand : Prop :=
  ∀ (c : Instr) (rest : List Instr) (s : State),
    step { s with pending := c :: rest } = exec c { s with pending := rest }

/-- On an empty queue one millisecond of the line clock passes (log entry 2, the model's choice): the clock counts, the STARTING time counts
while the start deadline is armed in STARTING, and nothing else changes. -/
def Obligations.EmptyQueuePassesAMillisecond : Prop :=
  ∀ s : State, s.pending = [] → ∃ t, step s = .next t ∧
    t.line.clock = s.line.clock + 1 ∧
    t.line.deadline = (if s.line.state = .starting then s.line.deadline.map (· + 1) else s.line.deadline) ∧
    { t with line.clock := s.line.clock, line.deadline := s.line.deadline } = s

/-- What power-on leaves in every block (R5, R34, R39, R87, R88, R92, R107, R117, R126, R146, R150, R162). POWER_ON puts every block at its
power-on values, with the input levels as they stand; shared memory and the waiting commands are not the part's. -/
def Obligations.ResetAndPowerOn : Prop :=
  (let s := State.reset
  (s.lib.slots.length = 48 ∧ s.slot 0 = trialSlot ∧ (∀ n, 1 ≤ n → n ≤ 47 → s.lib.slots[n]? = some freeSlot) ∧
    s.lib.bufA = none ∧ s.lib.bufB = none) ∧
  (trialSlot.state = .active ∧ trialSlot.live = some .a ∧ trialSlot.flip = false ∧ trialSlot.uses = 0 ∧ trialSlot.prot = true) ∧
  (s.orders = [] ∧ s.turret.rolls = [] ∧ s.turret.classes = List.replicate 8 none) ∧
  (s.head.state = .retracted ∧ s.head.f = 0 ∧ s.head.o = 0 ∧ s.head.aligned = false ∧ s.head.offset = 0 ∧ s.head.panel = none ∧
    s.head.passage = .none ∧ s.head.marks = []) ∧
  (s.web.segs = [] ∧ s.web.nextSeg = 0 ∧ s.web.panels = [] ∧ s.web.nextPanel = 1 ∧ s.web.exits = []) ∧
  (s.chest.zones.length = 4 ∧
    (∀ z ∈ s.chest.zones, z.enabled = true ∧ z.setPoint = 1000 ∧ z.target = none ∧ z.duty = 0 ∧ z.ready = false) ∧
    s.chest.par = ⟨20, 200, 10, 10, 100, 50⟩ ∧ s.chest.cells = List.replicate 64 ⟨none, none⟩ ∧ s.chest.entry = 0) ∧
  (s.line.state = .off ∧ s.line.range = .low ∧ s.line.commanded = 5 ∧ s.line.limit = 40 ∧ s.line.ceiling = 240 ∧
    s.line.effective = 5 ∧ s.line.speedRef = 0 ∧ s.line.store = 0 ∧ s.line.unwind = false ∧ s.line.consts = none ∧
    s.line.clock = 0 ∧ s.line.cause = none) ∧
  (s.turret.spinA.state = .empty ∧ s.turret.spinB.state = .empty ∧ s.turret.seq = .idle ∧ s.turret.pressOut = false) ∧
  (s.port.state = .uninitialised ∧ s.port.fault = .none ∧ s.port.outcome = .none ∧ s.port.table = [] ∧ s.port.attention = false)) ∧
  (∀ (e : Env) (l : Levels) (s : State),
    exec (.powerOn e l) s = .next { State.reset with
      mem := (arrive e s).mem, bus := (arrive e s).bus, pending := s.pending
      line.estop := l.estop, line.drive := l.drive
      turret.spinA.readyIn := l.readyA, turret.spinA.coreIn := l.coreA
      turret.spinB.readyIn := l.readyB, turret.spinB.coreIn := l.coreB, turret.splice := l.splice })

/-- The state after reset meets every invariant of Safety.lean; what they say of a part with no READY interface (R162, R165, R172, R175:
nothing is held) it meets too. -/
def Obligations.ResetMeetsTheInvariants : Prop :=
  Inv State.reset

/-! ### The control window and the ring of requests (R161 to R175) -/

/-- R163: a bootstrap write is taken in UNINITIALISED and INIT_FAILED alone; address 0 fails at once as BAD_BLOCK, with the constants
outcome NONE (the model's choice, log entry 22). R165, R171: a strobe in READY begins a scan or leaves the rescan mark; an attention write
lowers attention outside INITIALISING; in READY both examine the return slot at the post position. R175: an interface reset drops every held
request and forgets the rings; records, line and lines of orders go on. R161, R162, R176: what the 32 bytes of the window show, with the
codes of each field; the Awaits counted are those held that passed the checks (log entry 47), and where a ring fault follows refused
constants byte 3 shows the ring (the model's choice, log entry 62). -/
def Obligations.WritesOfTheControlWindow : Prop :=
  (∀ (e : Env) (addr : U32) (s : State),
    let u := arrive e s
    let begun := { u with port.initBlock := some addr.toNat, port.fault := .none, port.ringFault := none }
    (u.port.state = .initialising ∨ u.port.state = .ready → exec (.bootstrapWrite e addr) s = .next u) ∧
    (u.port.state = .uninitialised ∨ u.port.state = .initFailed →
      (addr ≠ 0 → exec (.bootstrapWrite e addr) s = .next { begun with port.state := .initialising }) ∧
      (addr = 0 → exec (.bootstrapWrite e addr) s = .next
        { begun with port.state := .initFailed, port.fault := .badBlock, port.outcome := .none, port.attention := true }))) ∧
  (∀ (e : Env) (s : State),
    let u := arrive e s
    (u.port.state = .ready → u.port.scan = .idle →
      exec (.scanStrobe e) s = .next (examineReturn { u with port.scan := .active, port.examined := 0 })) ∧
    (u.port.state = .ready → u.port.scan ≠ .idle →
      exec (.scanStrobe e) s = .next (examineReturn { u with port.rescan := true })) ∧
    (u.port.state ≠ .ready → exec (.scanStrobe e) s = .next u) ∧
    (u.port.state = .ready → exec (.attentionWrite e) s = .next (examineReturn { u with port.attention := false })) ∧
    (u.port.state = .initialising → exec (.attentionWrite e) s = .next u) ∧
    (u.port.state = .uninitialised ∨ u.port.state = .initFailed →
      exec (.attentionWrite e) s = .next { u with port.attention := false })) ∧
  (∀ (e : Env) (s : State),
    let u := arrive e s
    exec (.interfaceReset e) s = .next { u with
      port := { Port.initial with nextNo := u.port.nextNo }
      lib.bufA := none, lib.bufB := none
      lib.slots := u.lib.slots.map (fun y => { y with busy := false, watch := none })
      orders := u.orders.map (fun o => { o with watch := none })
      head.align := u.head.align.map (fun a => { a with entry := none })
      web.awaits := [], line.stopWatches := [], line.startWatch := none, turret.now := none
      turret.rolls := u.turret.rolls.map (fun r => { r with watch := none }) }) ∧
  (∀ s : State,
    let p := s.port
    let l := s.line
    let awaits := (p.table.filter (fun y => y.req.any (fun r => r.2 == .awaitPanelExit) &&
      (y.stage == .running || y.stage == .posting))).length
    let stage := fun (f : Stage → Bool) => b8 (p.table.filter (fun y => f y.stage)).length
    let at' := fun (n : Nat) (b : Bool) => if b = true then 2 ^ n else 0
    let detail := match p.fault, p.ringFault, p.outcome with
      | .ringFault, some (ret, i), _ => at' 7 ret + i % 64
      | .ringFault, none, _ => 0
      | _, _, .refused row => row
      | _, _, _ => 0
    s.window = [
      b8 (p.state.code + 4 * p.scan.code + at' 4 p.attention + 32 * awaits), b8 p.fault.code, b8 p.outcome.code, b8 detail,
      stage (fun y => y == .taken), stage (fun y => match y with | .waiting _ => true | _ => false),
      stage (fun y => y == .running), stage (fun y => y == .posting),
      b8 l.state.code,
      b8 (at' 0 l.holds.operator + at' 1 l.holds.heat + at' 2 l.holds.noOrder + at' 3 l.holds.panelsFull + at' 4 l.holds.mapFull),
      b8 ((l.cause.map HaltCause.code).getD 0), 0] ++
      le 2 (at' 0 l.halts.estop + at' 1 l.halts.driveFault + at' 2 l.halts.tailOut + at' 3 l.halts.spliceFault +
        at' 4 l.halts.missedFolds + at' 5 l.halts.sensor + at' 6 l.halts.overtemp + at' 7 l.halts.overfill +
        at' 8 l.halts.feedStall) ++
      [0, 0, b8 (at' 0 p.attention), 0, 0, 0, 0, 0, 0, 0, b8 p.state.code, 0, 0, 0, 0, 0, 0, 0]) ∧
  ([PortState.uninitialised, .initialising, .ready, .initFailed].map PortState.code = [0, 1, 2, 3] ∧
    [Scan.idle, .active, .suspended].map Scan.code = [0, 1, 2] ∧
    [PortFault.none, .badBlock, .badRing, .busFault, .ringFault].map PortFault.code = [0, 1, 2, 3, 4] ∧
    (∀ row, [ConstsOutcome.none, .absent, .applied, .kept, .refused row].map ConstsOutcome.code = [0, 1, 2, 3, 4]) ∧
    [LineState.off, .standby, .thread, .starting, .run, .hold, .stopping, .halt].map LineState.code = [0, 1, 2, 3, 4, 5, 6, 7] ∧
    [HaltCause.estop, .driveFault, .tailOut, .spliceFault, .missedFolds, .sensor, .overtemp, .overfill, .feedStall].map
      HaltCause.code = [1, 2, 3, 4, 5, 6, 7, 8, 9])

/-- R164: how a bootstrap ends. A block that reads and whose rings pass makes the interface READY with slot 0 next in both rings; its
constants are absent, kept outside OFF, or, in OFF with no splice arrival pending, applied whole or refused with the failing row (which row:
log entry 45). A bootstrap that fails leaves the constants outcome NONE (the model's choice, log entry 22). The block is read whole at the
end (the model's choice, log entry 7). With an arrival pending a set is refused with row 0 (the model's choice, log entry 32). -/
def Obligations.BootstrapEndsReadyOrFailed : Prop :=
  ∀ (e : Env) (s : State),
    let u := arrive e s
    let fail := fun (f : PortFault) (t : State) =>
      { t with port.state := .initFailed, port.fault := f, port.outcome := .none, port.attention := true }
    (u.port.state ≠ .initialising → exec (.bootstrapEnd e) s = .next (settle u)) ∧
    (u.port.state = .initialising → ∀ a, u.port.initBlock = some a →
      (u.load (addrs a 52) = none → exec (.bootstrapEnd e) s = .next (settle (fail .busFault u))) ∧
      (∀ bs, u.load (addrs a 52) = some bs →
        let out := (u32At bs 0).toNat
        let n := (u16At bs 4).toNat
        let m := (u16At bs 6).toNat
        let ret := (u32At bs 8).toNat
        let good := out ≠ 0 ∧ ret ≠ 0 ∧ 4 ≤ n ∧ n ≤ 64 ∧ 4 ≤ m ∧ m ≤ 64 ∧ (out + 8 * n ≤ ret ∨ ret + 8 * m ≤ out)
        let flag := bitSet (byteAt bs 0x0C).toNat 0
        let k := parseConsts (bs.drop 0x10)
        let up := fun (t : State) (o : ConstsOutcome) =>
          { t with
            port.state := .ready, port.fault := .none, port.ringFault := none, port.outcome := o, port.attention := true
            port.out := some ⟨out, n, n - 1⟩, port.ret := some ⟨ret, m, 0⟩, port.scan := .idle, port.rescan := false
            port.examined := 0, port.table := [], port.posting := [] }
        (¬ good → exec (.bootstrapEnd e) s = .next (settle (fail .badRing u))) ∧
        (good → flag = false → exec (.bootstrapEnd e) s = .next (settle (up u .absent))) ∧
        (good → flag = true → u.line.state ≠ .off → exec (.bootstrapEnd e) s = .next (settle (up u .kept))) ∧
        (good → flag = true → u.line.state = .off → u.head.arrival = none →
          (∀ f, constsFirstFail k u.line.store = some f →
            exec (.bootstrapEnd e) s = .next (settle (up u (.refused f.row)))) ∧
          (constsFirstFail k u.line.store = none →
            exec (.bootstrapEnd e) s = .next (settle (up (applyConsts k u) .applied)))) ∧
        (good → flag = true → u.line.state = .off → u.head.arrival ≠ none →
          exec (.bootstrapEnd e) s = .next (settle (up u (.refused 0))))))

/-- R171: the return slot at the post position is examined. With no completion waiting nothing is posted. A slot that is not FREE keeps the
posts waiting; a FREE one takes the oldest: the slot is written, the position moves on, attention is raised, the entry of a last post leaves
the table, and the next slot is examined, for the next waiting completion or, after the last, for none. That this examination follows the
post at once, before the rest of the event, is the model's choice (log entry 48). R172: a slot that faults, read with or without a
completion waiting, is a ring fault; a post whose write faults is lost. Of a return slot the state byte alone is read (the model's choice,
log entry 60). R171: posts that join the queue make their entry POSTING, and the slot is examined; while it is not FREE, or the port is not
READY, the entry stays POSTING with them. An entry that a ring fault dropped earlier in the same event posts nothing (R172, R175; DEDUCED,
log entry 72). R168: an entry that leaves the table makes a SUSPENDED scan ACTIVE. R171: a slot is written
address and code first and the state last, 1 COMPLETION or 2 ABORT_RESULT, its reserved bytes 0 (the model's choice, log entry 10); an
abort's result, and DUPLICATE, are such posts (R166, R173). -/
def Obligations.PostsGoOutInOrder : Prop :=
  (∀ (s : State) (r : Ring), s.port.state = .ready → s.port.ret = some r →
    let a := r.addr + 8 * r.pos
    (s.load [a + 4] = none → examineReturn s = ringFault true r.pos s) ∧
    (s.port.posting = [] → ∀ b, s.load [a + 4] = some [b] → examineReturn s = s) ∧
    (∀ it rest, s.port.posting = it :: rest →
      (∀ b, s.load [a + 4] = some [b] → b ≠ 0 → examineReturn s = s) ∧
      (s.load [a + 4] = some [0] →
        let t := s.store (slotBytes a it)
        let v := { t with port.posting := rest, port.ret := some ⟨r.addr, r.count, (r.pos + 1) % r.count⟩, port.attention := true }
        let w := if it.last then freeEntry it.no v else v
        (s.storeOk (slotBytes a it) = true → examineReturn s = examineReturn w) ∧
        (s.storeOk (slotBytes a it) = false → examineReturn s = ringFault true r.pos t)))) ∧
  (∀ (no : Nat) (items : List PostItem) (s : State),
    let t := { s with
      port.table := s.port.table.map (fun y => if y.no = no then { y with stage := .posting } else y)
      port.posting := s.port.posting ++ items }
    ((∃ y ∈ s.port.table, y.no = no) →
      enqueue no items s = examineReturn t ∧
      (∀ r b, s.port.state = .ready → s.port.ret = some r → s.load [r.addr + 8 * r.pos + 4] = some [b] → b ≠ 0 →
        enqueue no items s = t) ∧
      (s.port.state ≠ .ready → enqueue no items s = t)) ∧
    ((∀ y ∈ s.port.table, y.no ≠ no) → enqueue no items s = s)) ∧
  (∀ (no : Nat) (s : State),
    let left := { s with port.table := s.port.table.filter (fun y => y.no ≠ no) }
    (s.port.scan = .suspended → freeEntry no s = { left with port.scan := .active }) ∧
    (s.port.scan ≠ .suspended → freeEntry no s = left)) ∧
  (∀ (a : Nat) (it : PostItem),
    slotBytes a it = [(a, b8 it.block), (a + 1, b8 (it.block / 2 ^ 8)), (a + 2, b8 (it.block / 2 ^ 16)),
      (a + 3, b8 (it.block / 2 ^ 24)), (a + 5, b8 it.code), (a + 6, 0), (a + 7, 0), (a + 4, if it.result = true then 2 else 1)]) ∧
  (∀ (no target : Nat) (c : Code) (s : State),
    abortResult no c target s = enqueue no [⟨no, true, c.value, target, true⟩] s ∧
    concludeDuplicate no target s = enqueue no [⟨no, false, 0x11, target, true⟩] s)

/-- R165: one examination of an ACTIVE scan: a FREE slot is passed; a POSTED slot is written FREE and its request enters the table as TAKEN;
with 16 entries held the scan is SUSPENDED; a round with no take ends the scan or, with the rescan mark, begins afresh. R166, step 1: a
POSTED slot that names a block which another entry holds is entered and posted at once with the code DUPLICATE in the return slot,
nothing of the block being read or written. That the entries compared are those of requests, so that an abort entry which names the
block makes no duplicate, is the model's choice (log entry 39), and so is that all 8 bytes of an outbound slot are read (log entry 60).
-/
def Obligations.ScanTakesPostedSlots : Prop :=
  ∀ (e : Env) (s : State) (r : Ring) (block st : Nat),
    let u := arrive e s
    let i := (r.pos + 1 + u.port.examined) % r.count
    let a := r.addr + 8 * i
    let took := fun (abort : Bool) => { u.store [(a + 4, 0)] with
      port.out := some ⟨r.addr, r.count, i⟩, port.examined := 0
      port.table := u.port.table ++ [⟨u.port.nextNo, block, abort, .taken, none⟩]
      port.nextNo := u.port.nextNo + 1 }
    let holds := u.port.table.any (fun y => !y.abort && y.block == block)
    u.port.state = .ready → u.port.scan = .active → u.port.out = some r → u.readSlot a = some (block, st) →
      (st ≠ 1 → st ≠ 2 → u.port.examined + 1 < r.count →
        exec (.slotExamination e) s = .next (settle { u with port.examined := u.port.examined + 1 })) ∧
      (st ≠ 1 → st ≠ 2 → r.count ≤ u.port.examined + 1 → u.port.rescan = true →
        exec (.slotExamination e) s = .next (settle { u with port.examined := 0, port.rescan := false })) ∧
      (st ≠ 1 → st ≠ 2 → r.count ≤ u.port.examined + 1 → u.port.rescan = false →
        exec (.slotExamination e) s = .next (settle { u with port.examined := 0, port.scan := .idle })) ∧
      (st = 1 ∨ st = 2 → 16 ≤ u.port.table.length →
        exec (.slotExamination e) s = .next (settle { u with port.scan := .suspended })) ∧
      (u.port.table.length < 16 → u.storeOk [(a + 4, 0)] = true →
        (st = 1 → holds = false → exec (.slotExamination e) s = .next (settle (took false))) ∧
        (st = 1 → holds = true → exec (.slotExamination e) s = .next (settle
          (enqueue u.port.nextNo [⟨u.port.nextNo, false, 0x11, block, true⟩] (took false)))) ∧
        (st = 2 → exec (.slotExamination e) s = .next (settle
          (decideAbort u.port.nextNo block ⟨r.addr, r.count, i⟩ (took true)))))

/-- R172: a bus fault on a slot of the outbound ring is a ring fault with that ring and slot: as the scan reads a slot or writes it FREE,
and as an abort whose target is not held searches the ring or writes the slot it found FREE. The order of that search, once round the ring
from the slot after the abort's (log entry 21), that the entries looked at for the target are those of requests (log entry 39), and that all
8 bytes of a slot are read (log entry 60), are the model's choices. A ring fault makes the interface INIT_FAILED with RING_FAULT, records
the ring and the slot, drops every held request as an interface reset does, forgets the rings, ends the scan and raises attention; the
constants outcome stays as it stood (the model's choice, log entry 49), and the line and every record go on. R172, R175: no entry is in the
table then, so that what is left of the event completes nothing, posts nothing and holds no Stop (DEDUCED, log entry 72). -/
def Obligations.RingFaultsDropRequests : Prop :=
  (∀ (e : Env) (s : State) (r : Ring),
    let u := arrive e s
    let i := (r.pos + 1 + u.port.examined) % r.count
    let a := r.addr + 8 * i
    u.port.state = .ready → u.port.scan = .active → u.port.out = some r →
      (u.load (addrs a 8) = none → exec (.slotExamination e) s = .next (settle (ringFault false i u))) ∧
      (∀ block st, u.readSlot a = some (block, st) → st = 1 ∨ st = 2 → u.port.table.length < 16 →
        u.storeOk [(a + 4, 0)] = false → exec (.slotExamination e) s = .next (settle (ringFault false i u)))) ∧
  (∀ (no target : Nat) (r : Ring) (s : State) (n : Nat),
    let slot := fun j => (r.pos + 1 + j) % r.count
    s.port.table.any (fun y => !y.abort && y.block == target) = false → n < r.count →
    (∀ j, j < n → ∃ block st, s.readSlot (r.addr + 8 * slot j) = some (block, st) ∧ ¬ (st = 1 ∧ block = target)) →
    (s.readSlot (r.addr + 8 * slot n) = none → decideAbort no target r s = ringFault false (slot n) s) ∧
    (s.readSlot (r.addr + 8 * slot n) = some (target, 1) → s.storeOk [(r.addr + 8 * slot n + 4, 0)] = false →
      decideAbort no target r s = ringFault false (slot n) s)) ∧
  (∀ (ret : Bool) (i : Nat) (s : State), ringFault ret i s = { s with
    port := { s.port with
      state := .initFailed, fault := .ringFault, ringFault := some (ret, i), out := none, ret := none, scan := .idle
      rescan := false, examined := 0, table := [], posting := [], attention := true }
    lib.bufA := none, lib.bufB := none
    lib.slots := s.lib.slots.map (fun y => { y with busy := false, watch := none })
    orders := s.orders.map (fun o => { o with watch := none })
    head.align := s.head.align.map (fun a => { a with entry := none })
    web.awaits := [], line.stopWatches := [], line.startWatch := none, turret.now := none
    turret.rolls := s.turret.rolls.map (fun r => { r with watch := none }) }) ∧
  (∀ (ret : Bool) (i no : Nat) (s : State),
    let t := ringFault ret i s
    t.holdsEntry no = false ∧ (∀ a, conclude no a t = t) ∧ (∀ items, enqueue no items t = t) ∧ addStop no t = t) ∧
  (∀ (no : Nat) (s : State), s.holdsEntry no = true ↔ ∃ y ∈ s.port.table, y.no = no)

/-- R173, R174: an abort whose target is held ends it as ABORTED with the stage it found, and its own result is FOUND: in TAKEN nothing is
dispatched; in WAITING the record is not touched; RUNNING, a page fetch is abandoned with its slot as before (R7), a Retire Pattern returns
its slot to ACTIVE (R17), a notify watch ends with its order's counts (R61), a Retire Roll leaves its roll SPENT (R47), an Await leaves the
list (R101), a Start sends STARTING to STANDBY and leaves HOLD with the deadline disarmed (R130), an Align Blade leaves the alignment
INVALID (R86), a Splice Now before the trigger clears the request wish (R159); what a fetch frees is retried. A Stop, and a Splice Now in
PRESSING, stay held: NOT_ABORTABLE. That the abort's result is posted before the retries of what an abandoned fetch frees (log entry 26),
that the entries searched are those of requests alone (log entry 39), and that the sense allocation of a TAKEN target is read from its block
(log entry 8), are the model's choices. R173, steps 2 to 4: an abort whose target is not held. A target in POSTING is complete: NOT_FOUND.
One that a POSTED slot of the outbound ring names, the first in ring order from the scan position on (log entry 21, the model's choice), has
that slot written FREE and ABORTED written as its block's code, and is posted before the abort's result, FOUND, both by the abort's entry
(the fault on that write: RingFaultsDropRequests). One that is nowhere is NOT_FOUND. -/
def Obligations.AbortsByTheTargetsStage : Prop :=
  (∀ (no target : Nat) (r : Ring) (s : State) (x : Entry),
    s.port.table.find? (fun y => !y.abort && y.block == target && y.stage != .posting) = some x →
      let aborted := refusal .aborted (senseVals [3])
      let found := fun (t : State) => decideAbort no target r s = abortResult no .found target t
      (x.stage = .taken →
        found (concludeWith x.no (s.unreadReq x.block) (refusal .aborted (senseVals [1])) s)) ∧
      (∀ w, x.stage = .waiting w → found (conclude x.no (refusal .aborted (senseVals [2])) s)) ∧
      (∀ q c, x.stage = .running → x.req = some (q, c) →
        (∀ f, c = .definePattern ∨ c = .amendPattern → s.lib.bufA = some f → f.entry = x.no → decideAbort no target r s =
          retryFor (freesFetch f.slot) (abortResult no .found target (conclude x.no aborted { s with
            lib.bufA := none, lib.slots := s.lib.slots.modify f.slot (fun y => { y with busy := false }) }))) ∧
        (∀ f, c = .definePattern ∨ c = .amendPattern → (∀ g, s.lib.bufA = some g → g.entry ≠ x.no) → s.lib.bufB = some f →
          f.entry = x.no → decideAbort no target r s =
          retryFor (freesFetch f.slot) (abortResult no .found target (conclude x.no aborted { s with
            lib.bufB := none, lib.slots := s.lib.slots.modify f.slot (fun y => { y with busy := false }) }))) ∧
        (c = .retirePattern → found (conclude x.no aborted { s with lib.slots := s.lib.slots.map (fun y =>
          if y.watch = some x.no then { y with state := .active, watch := none } else y) })) ∧
        (∀ a o, c = .placeOrder a → s.orders.find? (fun y => y.watch == some x.no) = some o →
          found (conclude x.no { aborted with params := [(0x10, o.counts)] }
            (s.mapOrder o.tag (fun y => { y with watch := none })))) ∧
        (c = .retireRoll → found (conclude x.no aborted { s with turret.rolls := s.turret.rolls.map (fun y =>
          if y.watch = some x.no then { y with watch := none } else y) })) ∧
        (c = .awaitPanelExit → found (conclude x.no aborted
          { s with web.awaits := s.web.awaits.filter (fun n => n != x.no) })) ∧
        (c = .start →
          let t := conclude x.no aborted { s with line.startWatch := none }
          (s.line.state = .starting → found (lineTo .standby t)) ∧
          (s.line.state ≠ .starting → found { t with line.deadline := none })) ∧
        (∀ a, c = .alignBlade → s.head.align = some a →
          found (finishAlign a aborted { s with head.aligned := false })) ∧
        (c = .spliceNow → s.turret.seq ≠ .pressing → found (conclude x.no aborted
          (changeWishes (fun t => { t with turret.request := false }) { s with turret.now := none }))) ∧
        ((∃ b, c = .stop b) ∨ c = .spliceNow ∧ s.turret.seq = .pressing →
          decideAbort no target r s = abortResult no .notAbortable target s))) ∧
  (∀ (no target : Nat) (r : Ring) (s : State),
    let mine := fun (y : Entry) => !y.abort && y.block == target
    let slot := fun j => (r.pos + 1 + j) % r.count
    let other := fun j => ∃ block st, s.readSlot (r.addr + 8 * slot j) = some (block, st) ∧ ¬ (st = 1 ∧ block = target)
    (s.port.table.any mine = true → (∀ y ∈ s.port.table, mine y = true → y.stage = .posting) →
      decideAbort no target r s = abortResult no .notFound target s) ∧
    (s.port.table.any mine = false → (∀ j, j < r.count → other j) →
      decideAbort no target r s = abortResult no .notFound target s) ∧
    (∀ n, s.port.table.any mine = false → n < r.count → (∀ j, j < n → other j) →
      s.readSlot (r.addr + 8 * slot n) = some (target, 1) → s.storeOk [(r.addr + 8 * slot n + 4, 0)] = true →
      decideAbort no target r s = enqueue no
        [⟨no, false, Code.aborted.value, target, false⟩, ⟨no, true, Code.found.value, target, true⟩]
        ((s.store [(r.addr + 8 * slot n + 4, 0)]).store [(target + 3, b8 Code.aborted.value)])))

/-- R166: the reading of a taken block ends. A block whose bytes give a header that passes the port's checks and whose parameter area spells
a request is handed to that request's decision, its data area read as the header describes it. A sense allocation of 2..7 or above 64 is
refused before the kind, a kind that names no request before the parameter area is read, a segment list that fails its checks (R167) after
it, and a fifth Await Panel Exit as LIMIT with the blocks of the four held. A fault on the parameter area or the list ends the request as
BUS_FAULT (R172). R167: the segment list of a kind with a data area, when the flag is set: a count outside 1..16, or an entry of length 0,
named by its index from 0 (the model's choice, log entry 56), refuses it as SEGMENT_LIST; else the entries stand in list order. That the
readings are whole at their end (log entry 7) and which Awaits count as held (log entry 47) are the model's choices. R166: every request row
is checked and handed to its owner in the same way; the rows of the requests that only read do not call on the head. With no TAKEN entry of
the block whose reading has not ended, the oldest taken first, a row or a block read does nothing but let the time pass (the model's choice,
log entry 6). A header that does not read refuses as BUS_FAULT, with what is then known of the request (log entry 8). The field and the
value of BAD_KIND are the model's choice (log entry 64). -/
def Obligations.BlockReadDispatches : Prop :=
  (∀ (e : Env) (block : U32) (s : State) (x : Entry) (bs : List Byte),
    let u := arrive e s
    let h := parseHeader bs
    u.takenEntry block.toNat = some x → u.load (addrs x.block 32) = some bs →
      let q : Req := ⟨BitVec.ofNat 32 x.block, h.sense, h.key, .contiguous h.addr h.len⟩
      let refused := fun (r : Req) (a : Answer) =>
        exec (.requestBlockRead e block) s = .next (settle (concludeWith x.no r a u))
      (senseOk h.sense.toNat = false → refused q (refusal .badSenseLength Sense.none)) ∧
      (senseOk h.sense.toNat = true → kindNamed h.kind = false →
        refused q (refusal .badKind (senseField (fieldId 1 0) [natVal h.kind]))) ∧
      (senseOk h.sense.toNat = true → kindNamed h.kind = true → u.load (addrs (x.block + 0x20) 32) = none →
        refused q (refusal .busFault Sense.none)) ∧
      (∀ ps c, senseOk h.sense.toNat = true → kindNamed h.kind = true → u.load (addrs (x.block + 0x20) 32) = some ps →
        decodeCall h.kind h.option ps = some c →
        (∀ a, u.readData h = .error a → refused q a) ∧
        (∀ d, u.readData h = .ok d →
          (∀ a, callHasData c = true → dataFail d = some a → refused { q with data := d } a) ∧
          ((callHasData c = true → dataFail d = none) →
            (c = .awaitPanelExit → 4 ≤ u.heldAwaits.length →
              refused { q with data := d } (refusal .limit (senseVals (u.heldAwaits.map (fun y => natVal y.block))))) ∧
            ((c = .awaitPanelExit → u.heldAwaits.length < 4) → exec (.requestBlockRead e block) s = .next (settle
              (decideCall x.no { q with data := d } c (setReq x.no { q with data := d } c u)))))))) ∧
  (∀ (h : Header) (s : State),
    let listed := kindHasData h.kind = true ∧ h.segmented = true
    let n := h.len.toNat
    (¬ listed → s.readData h = .ok (.contiguous h.addr h.len)) ∧
    (listed → n = 0 ∨ 16 < n → ∃ y, s.readData h = .error (refusal .segmentList y)) ∧
    (listed → 1 ≤ n → n ≤ 16 → s.load (addrs h.addr.toNat (8 * n)) = none →
      s.readData h = .error (refusal .busFault Sense.none)) ∧
    (∀ bs, listed → 1 ≤ n → n ≤ 16 → s.load (addrs h.addr.toNat (8 * n)) = some bs →
      s.readData h = .ok (.segmented ((List.range n).map (fun i => ⟨u32At bs (8 * i), u32At bs (8 * i + 4)⟩))))) ∧
  (∀ (a : U32) (n : U16) (gs : List DataSeg),
    dataFail (.contiguous a n) = none ∧
    (1 ≤ gs.length → gs.length ≤ 16 → (∀ g ∈ gs, g.len ≠ 0) → dataFail (.segmented gs) = none) ∧
    (∀ before g after, gs.length ≤ 16 → gs = before ++ g :: after → (∀ y ∈ before, y.len ≠ 0) → g.len = 0 →
      dataFail (.segmented gs) = some (refusal .segmentList (senseVals [natVal before.length])))) ∧
  (∀ (e : Env) (block : U32) (s : State),
    let u := arrive e s
    (u.takenEntry block.toNat = none → exec (.requestBlockRead e block) s = .next (settle u)) ∧
    (∀ x, u.takenEntry block.toNat = some x → u.load (addrs x.block 32) = none →
      exec (.requestBlockRead e block) s = .next (settle (concludeUnread x.no x.block (refusal .busFault Sense.none) u)))) ∧
  (∀ (i : Instr) (q : Req) (c : Call) (s : State), requestOf i = some (q, c) →
    let u := arrive (commandEnv i) s
    let answers := fun (t : State) => exec i s = .next (if readsOnly c = true then t else settle t)
    (u.takenEntry q.block.toNat = none → answers u) ∧
    (∀ x, u.takenEntry q.block.toNat = some x →
      let refused := fun (a : Answer) => answers (concludeWith x.no q a u)
      (senseOk q.sense.toNat = false → refused (refusal .badSenseLength Sense.none)) ∧
      (∀ a, senseOk q.sense.toNat = true → callHasData c = true → dataFail q.data = some a → refused a) ∧
      (senseOk q.sense.toNat = true → (callHasData c = true → dataFail q.data = none) →
        (c = .awaitPanelExit → 4 ≤ u.heldAwaits.length →
          refused (refusal .limit (senseVals (u.heldAwaits.map (fun y => natVal y.block))))) ∧
        ((c = .awaitPanelExit → u.heldAwaits.length < 4) → answers (decideCall x.no q c (setReq x.no q c u)))))) ∧
  (∀ (block : Nat) (s : State),
    let mine := fun (y : Entry) => y.abort = false ∧ y.block = block ∧ y.stage = .taken ∧ y.req = none
    (s.takenEntry block = none ↔ ∀ y ∈ s.port.table, ¬ mine y) ∧
    (∀ before y after, s.port.table = before ++ y :: after → (∀ z ∈ before, ¬ mine z) → mine y → s.takenEntry block = some y))

/-- R169: what frees retries each request that waits for it, one after another in arrival order. A retry decides the request afresh as its
block decides it at dispatch (for Amend Roll from step 1 of R44, log entry 50) against the record as it then stands; an entry that no
longer waits is left alone. Requests that wait for other records are not touched, and a request that goes back to WAITING keeps its
place in arrival order. The end of a fetch frees its slot and a buffer (R6, R7), the end of a press its two rolls (R48). -/
def Obligations.WaitingRequestsAreRetried : Prop :=
  (∀ (p : Await → Bool) (s : State),
    retryFor p s = (s.waitingFor p).foldl redecide s ∧
    ((s.port.table.map Entry.no).Pairwise (· < ·) → (s.waitingFor p).Pairwise (· < ·)) ∧
    (∀ n, n ∈ s.waitingFor p ↔ ∃ y ∈ s.port.table, y.no = n ∧ ∃ w, y.stage = .waiting w ∧ p w = true)) ∧
  (∀ (no : Nat) (s : State) (y : Entry), s.entry no = some y →
    (∀ w q c, y.stage = .waiting w → y.req = some (q, c) → redecide s no = decideCall no q c s) ∧
    ((∀ w, y.stage ≠ .waiting w) → redecide s no = s)) ∧
  (∀ (no : Nat) (w : Await) (s : State), (holdWaiting no w s).port.table.map Entry.no = s.port.table.map Entry.no) ∧
  (∀ (n t : Nat) (a b : Option PressRoll),
    (∀ w, freesFetch n w = true ↔ w = .slot n ∨ w = .buffers) ∧
    (freesRolls a b (.roll t) = true ↔ (∃ p, a = some p ∧ p.tag = t) ∨ ∃ p, b = some p ∧ p.tag = t)) ∧
  (∀ (e : Env) (q : Req) (s : State) (x : Entry),
    let decided := fun (c : Call) => Host.Outcome.next (settle (decideCall x.no q c (dispatched e q c s x)))
    (dispatches e q .definePattern s x = true → exec (.definePattern e q) s = decided .definePattern) ∧
    (dispatches e q .amendPattern s x = true → exec (.amendPattern e q) s = decided .amendPattern) ∧
    (dispatches e q .retirePattern s x = true → exec (.retirePattern e q) s = decided .retirePattern) ∧
    (∀ a, dispatches e q (.placeOrder a) s x = true → exec (.placeOrder e q a) s = decided (.placeOrder a)) ∧
    (∀ a, dispatches e q (.amendRoll a) s x = true → exec (.amendRoll e q a) s = decided (.amendRoll a)) ∧
    (dispatches e q .retireRoll s x = true → exec (.retireRoll e q) s = decided .retireRoll))

/-! ### Completion (R170) -/

/-- R170, R171: an entry whose request is known completes: the answer is written and the post of its code joins the queue; an entry that is
gone, or whose request is not known, completes nothing; a watch completes when there is one, several in turn. R170: the writes in their
order: the results (the parameter area first but where the answer says the data area, log entry 9), the sense area on every completion but
DONE, detail, residual, and the code last; a fault on the results puts BUS_FAULT in the answer's place (for every rule, log entry 9); each
write is attempted, byte by byte up to the first that faults (log entry 4). R166, R170: the sense area is as long as the allocation says: 16
for 0, none for 1, and 8 to 64; it holds the record, cut there, and then 0. R178: the record: its full length, the code, the field, 0, the
key and the values; the value of every code. In a canonical shared memory (an invariant of its own below) nothing but shared memory changes,
and there no byte outside the data area, the results, the sense area as far as the allocation goes, none at DONE, and the detail, residual
and code fields; where no access faults, code, detail, residual and the sense area read back as the answer gives them. A request whose
header was not read has the sense allocation its byte gives, or 1 (the model's choice, log entry 8). -/
def Obligations.CompletionWritesItsFields : Prop :=
  (∀ (q : Req) (a : Answer) (s : State), s.mem.wf = true →
    let block := q.block.toNat
    let b := settledAnswer q a s
    let t := writeAnswer q a s
    { t with mem := s.mem } = s ∧
    ∀ y : Nat, y ∉ a.data.map Prod.fst → y ∉ (paramWrites block a.params).map Prod.fst →
      (b.code = .done ∨ y < block + 0x40 ∨ block + 0x40 + senseRoom q.sense.toNat ≤ y) →
      y ∉ [block + 3, block + 4, block + 5, block + 8, block + 9] → t.mem.read y = s.mem.read y) ∧
  (∀ (q : Req) (a : Answer) (s : State), s.mem.wf = true →
    let block := q.block.toNat
    let x := a.sense
    let sense := [b8 (8 + 4 * x.vals.length), b8 a.code.value, b8 x.field, 0] ++ le 4 (x.key.getD q.key.toNat) ++
      x.vals.flatMap (fun v => le 4 (v % 2 ^ 32).toNat)
    s.bus.writes = [] → block + 0x80 ≤ 2 ^ 32 → (∀ p ∈ a.data ++ paramWrites block a.params, p.1 < 2 ^ 32) →
      let m := (writeAnswer q a s).mem
      m.read (block + 3) = b8 a.code.value ∧
      m.read (block + 4) = b8 a.detail ∧ m.read (block + 5) = b8 (a.detail / 256) ∧
      m.read (block + 8) = b8 a.residual ∧ m.read (block + 9) = b8 (a.residual / 256) ∧
      (a.code ≠ .done → ∀ i, i < senseRoom q.sense.toNat → m.read (block + 0x40 + i) = sense.getD i 0)) ∧
  (∀ (q : Req) (a : Answer) (s : State),
    let block := q.block.toNat
    let params := paramWrites block a.params
    let results := if a.dataFirst = true then a.data ++ params else params ++ a.data
    let b := if s.storeOk results = true then a else refusal .busFault Sense.none
    let x := b.sense
    let sense := [b8 (8 + 4 * x.vals.length), b8 b.code.value, b8 x.field, 0] ++ le 4 (x.key.getD q.key.toNat) ++
      x.vals.flatMap (fun v => le 4 (v % 2 ^ 32).toNat)
    let room := senseRoom q.sense.toNat
    let area := if b.code = .done then [] else (sense ++ List.replicate room 0).take room
    settledAnswer q a s = b ∧
    writeAnswer q a s = ((((s.store results).store (spread (block + 0x40) area)).store
      [(block + 4, b8 b.detail), (block + 5, b8 (b.detail / 256))]).store
      [(block + 8, b8 b.residual), (block + 9, b8 (b.residual / 256))]).store [(block + 3, b8 b.code.value)]) ∧
  (senseRoom 0 = 16 ∧ senseRoom 1 = 0 ∧ ∀ n, 8 ≤ n → n ≤ 64 → senseRoom n = n) ∧
  (∀ (block off a : Nat) (b : Byte) (bs : List Byte) (ps : List (Nat × List Byte)),
    paramWrites block [] = [] ∧ paramWrites block ((off, bs) :: ps) = spread (block + 0x20 + off) bs ++ paramWrites block ps ∧
    spread a [] = [] ∧ spread a (b :: bs) = (a, b) :: spread (a + 1) bs) ∧
  (∀ (s : State) (a : Nat) (b : Byte) (ps : List (Nat × Byte)),
    s.store [] = s ∧ s.storeOk [] = true ∧
    (faultsAt s.bus.writes a = true → s.store ((a, b) :: ps) = s ∧ s.storeOk ((a, b) :: ps) = false) ∧
    (faultsAt s.bus.writes a = false →
      let t := { s with mem := s.mem.write a b }
      s.store ((a, b) :: ps) = t.store ps ∧ s.storeOk ((a, b) :: ps) = t.storeOk ps) ∧
    (s.mem.wf = true → ∀ y, (s.mem.write a b).read y = if y = a then b else s.mem.read y) ∧
    (faultsAt s.bus.writes a = true ↔ 2 ^ 32 ≤ a ∨ ∃ p ∈ s.bus.writes, p.base.toNat ≤ a ∧ a < p.base.toNat + p.len)) ∧
  (∀ (no : Nat) (a : Answer) (s : State),
    let post := fun (q : Req) => enqueue no [⟨no, false, (settledAnswer q a s).code.value, q.block.toNat, true⟩] (writeAnswer q a s)
    (s.entry no = none → conclude no a s = s) ∧
    (∀ y, s.entry no = some y → y.req = none → conclude no a s = s) ∧
    (∀ y q c, s.entry no = some y → y.req = some (q, c) → conclude no a s = post q) ∧
    (∀ q, concludeWith no q a s = post q) ∧
    concludeWatch none a s = s ∧ concludeWatch (some no) a s = conclude no a s ∧
    (∀ ws, concludeAll [] a s = s ∧ concludeAll (no :: ws) a s = concludeAll ws a (conclude no a s))) ∧
  (∀ (no block : Nat) (a : Answer) (s : State),
    let unread := fun (sense : Byte) => concludeUnread no block a s =
      concludeWith no ⟨BitVec.ofNat 32 block, sense, 0, .contiguous 0 0⟩ a s
    (∀ n, s.load [block + 2] = some [n] → unread n) ∧ (s.load [block + 2] = none → unread 1)) ∧
  ([Code.done, .badKind, .badParam, .badSenseLength, .segmentList, .busFault, .noRecord, .duplicate, .tableFull, .inUse, .protect,
      .limit, .gradeRange, .fit, .wrongState, .notAligned, .heatTimeout, .lineHalted, .spliceFault, .alignRange, .aborted, .found,
      .notFound, .notAbortable].map Code.value =
    [0x00, 0x01, 0x02, 0x03, 0x04, 0x05, 0x10, 0x11, 0x12, 0x13, 0x14, 0x15, 0x16, 0x17, 0x20, 0x21, 0x22, 0x23, 0x24, 0x25, 0x30,
      0x38, 0x39, 0x3A])

/-- R170, R171: while no ring faults, a completion changes shared memory and the port, and nothing else of the part. The nine requests that
only read (R14, R33, R38, R46, R62, R103, R104, R125, R145) change shared memory and the port alone while no ring faults. -/
def Obligations.CompletionsAndQueriesChangeNothingElse : Prop :=
  (∀ (no : Nat) (a : Answer) (s : State),
    (conclude no a s).port.state = s.port.state →
      { conclude no a s with mem := s.mem, port := s.port } = s) ∧
  (∀ (c : Instr) (s t : State) (e : Env),
    ((∃ q alt, c = .readPattern e q alt) ∨ (∃ q a, c = .measurePattern e q a) ∨ (∃ q n, c = .readFibreClass e q n) ∨
      (∃ q, c = .readRoll e q) ∨ (∃ q, c = .readOrder e q) ∨ (∃ q, c = .readPanel e q) ∨ (∃ q, c = .readWebMap e q) ∨
      (∃ q b, c = .readZones e q b) ∨ (∃ q b, c = .readLineStatus e q b)) →
    exec c s = .next t → t.port.state = s.port.state →
      { t with mem := s.mem, port := s.port } = { arrive e s with mem := s.mem, port := s.port })

/-! ### The pattern library -/

/-- R6, R7, R10, R11: Define Pattern of a FREE slot and Amend Pattern of one that is not take a free assembly buffer, A before B (the
model's choice, log entry 57), the slot becomes busy and the request is held RUNNING; with both buffers in use it is held WAITING. R10, R11,
R15: a pattern number above 47 is refused as BAD_PARAM and pattern 0 as PROTECTED; R6: a busy slot holds the request WAITING. R15, R16:
Retire Pattern on a slot that is not busy: an ACTIVE slot of use count 0 becomes FREE at once, one in use becomes RETIRING with this request
as its watch, a RETIRING slot takes it as its watch or refuses it while it has one. The number found stands as the value of that BAD_PARAM
(the model's choice, log entry 64). -/
def Obligations.PatternRequestsByTheirSlot : Prop :=
  (∀ (e : Env) (q : Req) (s : State) (x : Entry),
    let n := q.key.toNat
    let held := fun (amend : Bool) (u : State) =>
      let v := u.mapSlot n (fun y => { y with busy := true })
      if u.lib.bufA = none then holdRunning x.no { v with lib.bufA := some ⟨x.no, n, amend⟩ }
      else if u.lib.bufB = none then holdRunning x.no { v with lib.bufB := some ⟨x.no, n, amend⟩ }
      else holdWaiting x.no .buffers u
    1 ≤ n → n ≤ 47 →
      (dispatches e q .definePattern s x = true →
        let u := dispatched e q .definePattern s x
        (u.slot n).busy = false →
        ((u.slot n).state = .free → exec (.definePattern e q) s = .next (settle (held false u))) ∧
        ((u.slot n).state ≠ .free → exec (.definePattern e q) s = .next (settle (conclude x.no
          (refusal .duplicate (senseVals [natVal (u.slot n).state.code, natVal (u.slot n).uses])) u)))) ∧
      (dispatches e q .amendPattern s x = true →
        let u := dispatched e q .amendPattern s x
        (u.slot n).busy = false →
        ((u.slot n).state ≠ .free → exec (.amendPattern e q) s = .next (settle (held true u))) ∧
        ((u.slot n).state = .free →
          exec (.amendPattern e q) s = .next (settle (conclude x.no (refusal .noRecord Sense.none) u))))) ∧
  (∀ (e : Env) (q : Req) (s : State) (x : Entry) (c : Instr) (k : Call),
    ((c = .definePattern e q ∧ k = .definePattern) ∨ (c = .amendPattern e q ∧ k = .amendPattern) ∨
      (c = .retirePattern e q ∧ k = .retirePattern)) →
    dispatches e q k s x = true →
      let u := dispatched e q k s x
      let n := q.key.toNat
      (47 < n → exec c s = .next (settle (conclude x.no (badField keyField [natVal n]) u))) ∧
      (n = 0 → exec c s = .next (settle (conclude x.no (refusal .protect Sense.none) u))) ∧
      (1 ≤ n → n ≤ 47 → (u.slot n).busy = true → exec c s = .next (settle (holdWaiting x.no (.slot n) u)))) ∧
  (∀ (e : Env) (q : Req) (s : State) (x : Entry),
    dispatches e q .retirePattern s x = true →
      let u := dispatched e q .retirePattern s x
      let n := q.key.toNat
      let y := u.slot n
      1 ≤ n → n ≤ 47 → y.busy = false →
        (y.state = .free → exec (.retirePattern e q) s = .next (settle (conclude x.no (refusal .noRecord Sense.none) u))) ∧
        (y.state = .active → y.uses = 0 → exec (.retirePattern e q) s = .next (settle (conclude x.no done
          (u.mapSlot n (fun z => { z with
            state := .free, pageA := none, pageB := none, live := none, flip := false, uses := 0, watch := none }))))) ∧
        (y.state = .active → y.uses ≠ 0 → exec (.retirePattern e q) s = .next (settle (holdRunning x.no
          (u.mapSlot n (fun z => { z with state := .retiring, watch := some x.no }))))) ∧
        (y.state = .retiring → y.watch.isSome = true → exec (.retirePattern e q) s = .next (settle (conclude x.no
          (refusal .wrongState (senseVals [natVal y.uses])) u))) ∧
        (y.state = .retiring → y.watch = none → exec (.retirePattern e q) s = .next (settle (holdRunning x.no
          (u.mapSlot n (fun z => { z with watch := some x.no }))))))

/-- R7, R10, R11, R12: a page fetch ends. A page that fails, or that an order present would fail, leaves the slot as it was but for the busy
mark; Define writes the page to both pages of the slot, page A live; Amend writes the alternate page and flips at once, or leaves the flip
pending while an order of the pattern is FORMING (the slot not having become FREE meanwhile, log entry 31). The buffer is free, and the
requests that waited for it and for the slot are retried together, in arrival order, after the completion of the fetch (the model's choice
where one event frees two records, log entry 26). R7: the steps of the fetch: a total below 16, a group count outside 1..32, a total other
than 16 + 8 g, and a bus fault on either read refuse it. R8: the range checks in their order; the first that fails names the field, the
group and the value (field identifiers: log entry 10). R9: then the grade check at the base size, and the limits at k = 0, where T is N and
the output length W; a page that passes all is taken as its bytes spell it. R11: an amended page fails at the first order, in queue
sequence, whose size fails R20. R50: queue sequence. That a page is read whole at the end of its fetch is the model's choice (log entry 7).
The values of SEGMENT_LIST below 16 and of the BAD_PARAM of the group count are the model's choice (log entry 64). -/
def Obligations.PageFetchEnds : Prop :=
  (∀ (e : Env) (buf : BufferId) (s : State) (f : Fetch) (x : Entry) (q : Req) (c : Call),
    let u := arrive e s
    let ends := fun (a : Answer) (t : State) => retryFor (freesFetch f.slot) (conclude f.entry a (releaseFetch buf t))
    u.buffer buf = some f → u.entry f.entry = some x → x.req = some (q, c) →
      (∀ a, u.fetchPage q.data = .error a → exec (.pageFetchDone e buf) s = .next (settle (ends a u))) ∧
      (∀ p, u.fetchPage q.data = .ok p → f.amend = false →
        exec (.pageFetchDone e buf) s = .next (settle (ends done (u.mapSlot f.slot (fun y => { y with
          state := .active, pageA := some p, pageB := some p, live := some .a, flip := false, uses := 0, watch := none }))))) ∧
      (∀ p a, u.fetchPage q.data = .ok p → f.amend = true → (u.slot f.slot).state ≠ .free →
        amendFail p (u.queueSeq.filter (fun o => o.pattern == f.slot)) = some a →
        exec (.pageFetchDone e buf) s = .next (settle (ends a u))) ∧
      (∀ p, u.fetchPage q.data = .ok p → f.amend = true → (u.slot f.slot).state ≠ .free →
        amendFail p (u.queueSeq.filter (fun o => o.pattern == f.slot)) = none →
        let superseded := if (u.slot f.slot).flip then 1 else 0
        let write := fun (y : Slot) =>
          if y.live.getD .a = .a then { y with pageB := some p } else { y with pageA := some p }
        (u.formingOf f.slot = true → exec (.pageFetchDone e buf) s = .next (settle (ends (doneDetail (superseded + 4))
          (u.mapSlot f.slot (fun y => { write y with flip := true }))))) ∧
        (u.formingOf f.slot = false → exec (.pageFetchDone e buf) s = .next (settle (ends (doneDetail (superseded + 2))
          (u.mapSlot f.slot (fun y => { write y with live := y.live.map Letter.other, flip := false }))))))) ∧
  (∀ (d : DataArea) (s : State),
    let total := dataTotal d
    (total < 16 → ∃ y, s.fetchPage d = .error (refusal .segmentList y)) ∧
    (16 ≤ total → s.load (dataAddrs d 16) = none → s.fetchPage d = .error (refusal .busFault Sense.none)) ∧
    (∀ hd, 16 ≤ total → s.load (dataAddrs d 16) = some hd →
      let g := (byteAt hd 0x0E).toNat
      (g = 0 ∨ 32 < g → ∃ y, s.fetchPage d = .error (refusal .badParam y)) ∧
      (1 ≤ g → g ≤ 32 → total ≠ 16 + 8 * g → s.fetchPage d =
        .error (refusal .segmentList (senseField lenField [natVal total, natVal (16 + 8 * g)]))) ∧
      (1 ≤ g → g ≤ 32 → total = 16 + 8 * g → s.load (dataAddrs d (16 + 8 * g)) = none →
        s.fetchPage d = .error (refusal .busFault Sense.none)) ∧
      (∀ bs, 1 ≤ g → g ≤ 32 → total = 16 + 8 * g → s.load (dataAddrs d (16 + 8 * g)) = some bs →
        s.fetchPage d = validatePage bs g))) ∧
  (∀ (bs : List Byte) (g : Nat),
    let base := (byteAt bs 0x08).toNat
    let motif := (byteAt bs 0x09).toNat
    let waist := (u16At bs 0x0A).toNat
    let hem := (u16At bs 0x0C).toNat
    let code := fun (i : Nat) => (byteAt bs (16 + 8 * i)).toNat
    let count := fun (i : Nat) => (byteAt bs (16 + 8 * i + 1)).toNat
    let face := fun (i : Nat) => (u16At bs (16 + 8 * i + 2)).toNat
    let depth := fun (i : Nat) => (u16At bs (16 + 8 * i + 4)).toNat
    let step := fun (i : Nat) => (byteAt bs (16 + 8 * i + 6)).toInt
    let kind := fun (i : Nat) => [FoldKind.flat, .knifeLeft, .knifeRight, .box, .invertedBox].getD (code i) .flat
    let refused := fun (off : Nat) (vals : List Int) =>
      validatePage bs g = .error (refusal .badParam (senseField (fieldId 2 off) vals))
    let flats := base ≤ 11 ∧ waist ≤ 5000 ∧ hem ≤ 5000
    let depthOk := fun (i : Nat) => if code i = 0 then depth i = 0 else 20 ≤ depth i ∧ depth i ≤ 600
    let ok := fun (i : Nat) => code i ≤ 4 ∧ 1 ≤ count i ∧ 20 ≤ face i ∧ face i ≤ 2000 ∧ depthOk i ∧ -50 ≤ step i ∧ step i ≤ 50
    let p : Page := ⟨bs.take 8, base, waist, hem, motif,
      (List.range g).map (fun i => ⟨kind i, count i, face i, depth i, step i⟩)⟩
    (11 < base → refused 0x08 [natVal base]) ∧
    (base ≤ 11 → 5000 < waist → refused 0x0A [natVal waist]) ∧
    (base ≤ 11 → waist ≤ 5000 → 5000 < hem → refused 0x0C [natVal hem]) ∧
    (flats → motif = 0 ∨ 64 < motif → refused 0x09 [natVal motif]) ∧
    (flats → 1 ≤ motif → motif ≤ 64 →
      (∀ i, i < g → (∀ j, j < i → ok j) →
        (4 < code i → refused 0 [natVal (i + 1), natVal (code i)]) ∧
        (code i ≤ 4 → count i = 0 → refused 1 [natVal (i + 1), natVal (count i)]) ∧
        (code i ≤ 4 → 1 ≤ count i → ¬ (20 ≤ face i ∧ face i ≤ 2000) → refused 2 [natVal (i + 1), natVal (face i)]) ∧
        (code i ≤ 4 → 1 ≤ count i → 20 ≤ face i → face i ≤ 2000 → ¬ depthOk i →
          refused 4 [natVal (i + 1), natVal (depth i)]) ∧
        (code i ≤ 4 → 1 ≤ count i → 20 ≤ face i → face i ≤ 2000 → depthOk i → ¬ (-50 ≤ step i ∧ step i ≤ 50) →
          refused 6 [natVal (i + 1), step i])) ∧
      ((∀ i, i < g → ok i) →
        (∀ f, p.gradeCheck base = some f → ∃ y, validatePage bs g = .error (refusal .gradeRange y) ∧
          y.vals.take 5 = [natVal f.index, natVal f.group.kind.code, natVal f.group.face, natVal f.group.depth, natVal base]) ∧
        (p.gradeCheck base = none →
          let t := p.totalN base
          let out := p.totalW base
          (1000 ≤ out → out ≤ 40000 → t ≤ 120000 → validatePage bs g = .ok p) ∧
          (¬ (1000 ≤ out ∧ out ≤ 40000 ∧ t ≤ 120000) → ∃ y, validatePage bs g = .error (refusal .fit y) ∧
            y.vals.take 2 = [natVal t, natVal out]))))) ∧
  (∀ (p : Page) (before after : List Order) (o : Order), (∀ y ∈ before, p.gradeCheck y.size = none) →
    amendFail p before = none ∧
    (∀ f, p.gradeCheck o.size = some f → ∃ y, amendFail p (before ++ o :: after) = some (refusal .gradeRange y) ∧
      y.key = some o.tag ∧ y.vals.take 4 = [natVal o.size, natVal f.index, f.face, f.bound])) ∧
  (∀ (s : State) (n : Nat),
    (s.formingOf n = true ↔ ∃ o ∈ s.orders, o.pattern = n ∧ o.state = .forming) ∧
    s.queueSeq = s.orders.filter (fun o => o.state == .forming) ++
      s.orders.filter (fun o => o.state != .forming && o.cls == .rush) ++
      s.orders.filter (fun o => o.state != .forming && o.cls == .normal))

/-- R14: Read Pattern returns the slot summary and the live page, or with the alternate flag the alternate page, as many bytes as the data
area holds, with the rest of the page as the residual. R27, R32, R33: Measure Pattern measures the next page at the size and the class's
shrink allowance (0 for class 0): N_J, W_J, and T and the output length as round(10000 N / (10000 - k)); outside the limits it is refused as
FIT with its figures written. R2: the next page. R19, R20: the grade check names the first group whose graded face breaks a bound of its
kind. R21: the size span. R23, R24, R27: J, the stroke count, N_J, W_J and the limits. R26, R72: a panel drawn unit by unit from its first
unit: after J draws, and no sooner, its cursor is at the end, F has risen by T, and the outputs of the units add up to the output length.
R32: what Measure Pattern refuses, the pattern number before the size and the size before the class (the model's choice, log entry 70), an
EMPTY class with its number as the key (the model's choice, log entry 66), and that a busy slot holds it WAITING. -/
def Obligations.ReadAndMeasurePattern : Prop :=
  (∀ (e : Env) (q : Req) (alt : Bool) (s : State) (x : Entry) (p : Page),
    dispatches e q (.readPattern alt) s x = true →
      let u := dispatched e q (.readPattern alt) s x
      let n := q.key.toNat
      let y := u.slot n
      let total := dataTotal q.data
      n ≤ 47 → y.busy = false → y.state ≠ .free →
      y.page (if alt then (y.live.getD .a).other else y.live.getD .a) = some p →
        exec (.readPattern e q alt) s = .next (conclude x.no
          { code := .done, detail := 0, residual := p.bytes.length - total
            data := (dataAddrs q.data p.bytes.length).zip p.bytes
            params := [(0, [b8 y.state.code, b8 (bit y.prot 0 + bit y.flip 1 + bit y.watch.isSome 2), b8 (letterCode y.live),
              b8 y.uses, b8 ((y.pageA.map (fun g => g.groups.length)).getD 0),
              b8 ((y.pageB.map (fun g => g.groups.length)).getD 0)])]
            sense := Sense.none } u)) ∧
  (∀ (e : Env) (q : Req) (a : MeasureArgs) (s : State) (x : Entry) (p : Page),
    dispatches e q (.measurePattern a) s x = true →
      let u := dispatched e q (.measurePattern a) s x
      let n := q.key.toNat
      let y := u.slot n
      let size := a.size.toNat
      let k := if a.cls.toNat = 0 then 0 else u.allowance a.cls.toNat
      let scale := fun v => (20000 * v + (10000 - k)) / (2 * (10000 - k))
      let t := scale (p.totalN size)
      let out := scale (p.totalW size)
      let figures := (2, [b8 y.nextLetter.code, b8 (flagNat y.flip)] ++ le 2 k ++ [b8 (p.span.headD 0), b8 (p.span.getLastD 0)] ++
        le 4 p.units ++ le 4 p.strokeCount ++ le 4 (p.totalN size) ++ le 4 (p.totalW size) ++ le 4 t ++ le 4 out)
      n ≤ 47 → size ≤ 11 → a.cls.toNat ≤ 8 → y.busy = false → y.state ≠ .free → y.nextPage = some p →
      (a.cls.toNat = 0 ∨ (u.fibre a.cls.toNat).isSome = true) →
        (∀ g, p.gradeCheck size = some g → exec (.measurePattern e q a) s =
          .next (conclude x.no (refusal .gradeRange (gradeSense g size none)) u)) ∧
        (p.gradeCheck size = none → 1000 ≤ out → out ≤ 40000 → t ≤ 120000 → exec (.measurePattern e q a) s =
          .next (conclude x.no (doneParams [figures]) u)) ∧
        (p.gradeCheck size = none → ¬ (1000 ≤ out ∧ out ≤ 40000 ∧ t ≤ 120000) → exec (.measurePattern e q a) s =
          .next (conclude x.no { refusal .fit (fitSense (p.measure size k)) with params := [figures] } u))) ∧
  (∀ (e : Env) (q : Req) (a : MeasureArgs) (s : State) (x : Entry),
    dispatches e q (.measurePattern a) s x = true →
      let u := dispatched e q (.measurePattern a) s x
      let n := q.key.toNat
      let y := u.slot n
      let cls := a.cls.toNat
      let refused := fun (r : Answer) => exec (.measurePattern e q a) s = .next (conclude x.no r u)
      (47 < n → refused (badField keyField [natVal n])) ∧
      (n ≤ 47 → 11 < a.size.toNat → refused (badField (fieldId 0 0) [natVal a.size.toNat])) ∧
      (n ≤ 47 → a.size.toNat ≤ 11 → 8 < cls → refused (badField (fieldId 0 1) [natVal cls])) ∧
      (n ≤ 47 → a.size.toNat ≤ 11 → cls ≤ 8 →
        (y.busy = true → exec (.measurePattern e q a) s = .next (holdWaiting x.no (.slot n) u)) ∧
        (y.busy = false → y.state = .free → refused (refusal .noRecord Sense.none)) ∧
        (∀ p, y.busy = false → y.state ≠ .free → y.nextPage = some p → cls ≠ 0 → u.fibre cls = none →
          refused (refusal .noRecord ⟨0, some cls, []⟩)))) ∧
  (∀ (p : Page) (size k : Nat),
    let face := fun (g : Group) => (g.face : Int) + ((size : Int) - (p.base : Int)) * g.step
    let least := fun (g : Group) => match g.kind with
      | .flat => (20 : Int)
      | .knifeLeft => max 20 (g.depth : Int)
      | .knifeRight => max 20 (g.depth : Int)
      | .box => 2 * (g.depth : Int)
      | .invertedBox => 2 * (g.depth : Int)
    let hidden := fun (g : Group) => match g.kind with
      | .flat => 0
      | .knifeLeft => 2 * g.depth
      | .knifeRight => 2 * g.depth
      | .box => 4 * g.depth
      | .invertedBox => 4 * g.depth
    let folds := fun (g : Group) => match g.kind with
      | .flat => 0
      | .knifeLeft => 1
      | .knifeRight => 1
      | .box => 2
      | .invertedBox => 2
    let valid := fun (g : Group) => least g ≤ face g ∧ face g ≤ 2000
    let sum := fun (fig : Group → Nat) => (p.groups.map (fun g => g.count * fig g)).sum
    let scale := fun v => (20000 * v + (10000 - k)) / (2 * (10000 - k))
    let m := p.measure size k
    ((∀ g ∈ p.groups, valid g) → p.gradeCheck size = none) ∧
    (∀ before g after, p.groups = before ++ g :: after → (∀ h ∈ before, valid h) → ¬ valid g →
      p.gradeCheck size = some ⟨before.length + 1, g, face g, if face g < least g then least g else 2000⟩) ∧
    p.totalN size = p.waist + p.hem + p.motif * sum (fun g => (face g).toNat + hidden g) ∧
    p.totalW size = p.waist + p.hem + p.motif * sum (fun g => (face g).toNat) ∧
    p.units = (if p.waist = 0 then 0 else 1) + p.motif * sum (fun _ => 1) + (if p.hem = 0 then 0 else 1) ∧
    p.strokeCount = p.motif * sum folds ∧
    (∀ n, n ∈ p.span ↔ n ≤ 11 ∧ p.gradeCheck n = none) ∧ p.span.Pairwise (fun i j => i < j) ∧
    m = ⟨k, p.totalN size, p.totalW size, scale (p.totalN size), scale (p.totalW size)⟩ ∧
    (m.ok = true ↔ 1000 ≤ m.out ∧ m.out ≤ 40000 ∧ m.t ≤ 120000)) ∧
  (∀ (p : Page) (letter : Letter) (size k : Nat) (s : State), p.groups ≠ [] → 1 ≤ p.motif → (∀ g ∈ p.groups, 1 ≤ g.count) →
    s.boundPage = some p → s.head.meter = some (p.meter letter size k) → s.head.cursor = p.firstCursor →
      let m := p.measure size k
      let folded := fun (n : Nat) => Nat.iterate (fun t => match (wantFold t).head.wanted with
        | some u => takeDraw u t
        | none => t) n s
      let output := fun (n : Nat) => match (wantFold (folded n)).head.wanted with
        | some u => u.output
        | none => 0
      let t := folded p.units
      (∀ n, n < p.units → (folded n).head.cursor.part ≠ .atEnd) ∧ t.head.cursor.part = .atEnd ∧
      t.head.f = s.head.f + m.t ∧ ((List.range p.units).map output).sum = m.out ∧
      ∃ a, t.head.meter = some a ∧ a.j = p.units ∧ a.n = m.n ∧ a.w = m.w ∧ a.m = m.t ∧ a.q = m.out) ∧
  (∀ y : Slot,
    (y.flip = false → y.nextLetter = y.live.getD .a) ∧ (y.flip = true → y.nextLetter = (y.live.getD .a).other) ∧
    y.nextPage = y.page y.nextLetter)

/-! ### Fibre classes and rolls -/

/-- R35, R37: Set Fibre Class with every value in range writes the entry, DONE with NEW or REPLACED, and the ceiling is recomputed; any
value out of range changes nothing. R43: Register Roll with constants set, a new tag, a length above Rs and at most 20,000,000, a VALID
class and a place free adds a STAGED roll at the end of the table. A tag of 0 is refused as BAD_PARAM with the value 0 (the model's choice,
log entry 64). -/
def Obligations.ClassesAndRollsEntered : Prop :=
  (∀ (e : Env) (q : Req) (a : ClassArgs) (s : State) (x : Entry),
    dispatches e q (.setFibreClass a) s x = true →
      let u := dispatched e q (.setFibreClass a) s x
      let c := a.cls.toNat
      let ok := (1 ≤ c ∧ c ≤ 8) ∧ (600 ≤ a.theta.toNat ∧ a.theta.toNat ≤ 2000) ∧
        (a.theta.toNat + 100 ≤ a.tmax.toNat ∧ a.tmax.toNat ≤ 2400) ∧ (40 ≤ a.dose.toNat ∧ a.dose.toNat ≤ 16777215) ∧
        a.k.toNat ≤ 800
      (ok → exec (.setFibreClass e q a) s = .next (settle (conclude x.no
        (doneDetail (if u.fibre c = none then 1 else 2))
        (publish { u with turret.classes :=
          u.turret.classes.set (c - 1) (some ⟨a.theta.toNat, a.tmax.toNat, a.dose.toNat, a.k.toNat⟩) })))) ∧
      (¬ ok → ∃ vals field, exec (.setFibreClass e q a) s =
        .next (settle (conclude x.no (refusal .badParam ⟨field, none, vals⟩) u)))) ∧
  (∀ (e : Env) (q : Req) (a : RollArgs) (s : State) (x : Entry) (k : Consts),
    dispatches e q (.registerRoll a) s x = true →
      let u := dispatched e q (.registerRoll a) s x
      let tag := q.key.toNat
      (tag = 0 → exec (.registerRoll e q a) s = .next (settle (conclude x.no (badField keyField [0]) u))) ∧
      (tag ≠ 0 → u.line.consts = none →
        exec (.registerRoll e q a) s = .next (settle (conclude x.no (refusal .wrongState Sense.none) u))) ∧
      (tag ≠ 0 → u.line.consts = some k → k.rs + 1 ≤ a.len.toNat → a.len.toNat ≤ 20000000 → 1 ≤ a.cls.toNat → a.cls.toNat ≤ 8 →
        u.fibre a.cls.toNat ≠ none → u.findRoll tag = none →
        (u.turret.rolls.length < 8 → exec (.registerRoll e q a) s = .next (settle (conclude x.no done
          { u with turret.rolls := u.turret.rolls ++
            [⟨tag, a.len.toNat, a.cls.toNat, a.width.toNat, .staged, none, 0, 0, none⟩] }))) ∧
        (8 ≤ u.turret.rolls.length → exec (.registerRoll e q a) s = .next (settle (conclude x.no (refusal .tableFull
          (senseVals [natVal (u.turret.rolls.countP (fun r => r.state == .spent))])) u)))))

/-- R36, whole. -/
def Obligations.ClearFibreClassFollowsR36 : Prop :=
  ∀ (e : Env) (q : Req) (cls : U8) (s : State) (x : Entry),
    dispatches e q (.clearFibreClass cls) s x = true →
      let u := dispatched e q (.clearFibreClass cls) s x
      let c := cls.toNat
      let naming := u.turret.rolls.filter (fun r => r.cls == c)
      (¬ (1 ≤ c ∧ c ≤ 8) → ∃ y, exec (.clearFibreClass e q cls) s = .next (settle (conclude x.no (refusal .badParam y) u))) ∧
      (1 ≤ c → c ≤ 8 → u.fibre c = none →
        ∃ y, exec (.clearFibreClass e q cls) s = .next (settle (conclude x.no (refusal .noRecord y) u))) ∧
      (1 ≤ c → c ≤ 8 → u.fibre c ≠ none → ∀ r rs, naming = r :: rs → ∃ y, y.vals = [natVal naming.length, natVal r.tag] ∧
        exec (.clearFibreClass e q cls) s = .next (settle (conclude x.no (refusal .inUse y) u))) ∧
      (1 ≤ c → c ≤ 8 → u.fibre c ≠ none → naming = [] →
        exec (.clearFibreClass e q cls) s = .next (settle (conclude x.no done
          { u with turret.classes := u.turret.classes.set (c - 1) none })))

/-- R38: Read Fibre Class gives the entry's state and values (0 each when EMPTY), the number of rolls that name the class and whether the
RUNNING roll is of it. -/
def Obligations.ReadFibreClassReports : Prop :=
  ∀ (e : Env) (q : Req) (cls : U8) (s : State) (x : Entry),
    dispatches e q (.readFibreClass cls) s x = true →
      let u := dispatched e q (.readFibreClass cls) s x
      let c := cls.toNat
      let named := (u.turret.rolls.filter (fun r => r.cls == c)).length
      let runs := (u.turret.rolls.find? (fun r => r.state == .running)).any (fun r => r.cls == c)
      (¬ (1 ≤ c ∧ c ≤ 8) → ∃ y, exec (.readFibreClass e q cls) s = .next (conclude x.no (refusal .badParam y) u)) ∧
      (1 ≤ c → c ≤ 8 → u.turret.classes[c - 1]? = some none → exec (.readFibreClass e q cls) s = .next (conclude x.no
        (doneParams [(4, [0]), (6, zeros 4), (12, zeros 6 ++ [b8 named, b8 (flagNat runs)])]) u)) ∧
      (∀ f, 1 ≤ c → c ≤ 8 → u.turret.classes[c - 1]? = some (some f) → exec (.readFibreClass e q cls) s = .next (conclude x.no
        (doneParams [(4, [1]), (6, le 2 f.theta ++ le 2 f.tmax),
          (12, le 4 f.dose ++ le 2 f.k ++ [b8 named, b8 (flagNat runs)])]) u))

/-- R44, R45, R48: Amend Roll of a roll outside a press writes the flagged fields; a length not above what was unwound, or a class of a roll
already prepared, is refused and changes nothing; a new length of the RUNNING roll judges the point wish afresh (R150). R47, R48: Retire
Roll by the roll's state. A roll is in a press while PRESSING with it outgoing or incoming. A class change refused both for the roll's state
and for its class is refused for the state (the model's choice, log entry 70). -/
def Obligations.RollsAmendedAndRetired : Prop :=
  (∀ (e : Env) (q : Req) (a : AmendArgs) (s : State) (x : Entry) (r : Roll) (k : Consts),
    dispatches e q (.amendRoll a) s x = true →
      let u := dispatched e q (.amendRoll a) s x
      let tag := q.key.toNat
      let v := u.mapRoll tag (fun y => { y with
        declared := if a.setLen then a.len.toNat else y.declared
        cls := if a.setCls then a.cls.toNat else y.cls
        width := if a.setWidth then a.width.toNat else y.width })
      let lenOk := a.setLen = true → r.u < a.len.toNat ∧ k.rs < a.len.toNat ∧ a.len.toNat ≤ 20000000
      let clsOk := a.setCls = true → (r.state = .staged ∨ r.state = .mounted) ∧ 1 ≤ a.cls.toNat ∧ a.cls.toNat ≤ 8 ∧
        u.fibre a.cls.toNat ≠ none
      tag ≠ 0 → u.findRoll tag = some r → u.line.consts = some k →
        (u.inPress tag = true → exec (.amendRoll e q a) s = .next (settle (holdWaiting x.no (.roll tag) u))) ∧
        (u.inPress tag = false → lenOk → clsOk →
          exec (.amendRoll e q a) s = .next (settle (conclude x.no done
            (if r.state = .running ∧ a.setLen = true then changeWishes judgePoint v else v)))) ∧
        (u.inPress tag = false → ¬ (lenOk ∧ clsOk) → ∃ y, y.code ≠ .done ∧
          exec (.amendRoll e q a) s = .next (settle (conclude x.no y u))) ∧
        (u.inPress tag = false → lenOk → a.setCls = true → r.state = .prepared ∨ r.state = .running ∨ r.state = .spent →
          exec (.amendRoll e q a) s = .next (settle (conclude x.no
            (refusal .wrongState (senseVals [natVal r.state.code])) u)))) ∧
  (∀ (e : Env) (q : Req) (s : State) (x : Entry) (r : Roll),
    dispatches e q .retireRoll s x = true →
      let u := dispatched e q .retireRoll s x
      let tag := q.key.toNat
      let without := fun (t : State) => { t with turret.rolls := t.turret.rolls.filter (fun y => y.tag != r.tag) }
      let freed := match r.spindle with
        | some i => u.mapSpindle i (fun y => { y with state := .empty, tag := none })
        | none => u
      tag ≠ 0 → u.findRoll tag = some r →
        (u.inPress tag = true → exec (.retireRoll e q) s = .next (settle (holdWaiting x.no (.roll tag) u))) ∧
        (u.inPress tag = false →
          (r.state = .staged ∨ r.state = .mounted →
            exec (.retireRoll e q) s = .next (settle (conclude x.no done (without freed)))) ∧
          (r.state = .prepared →
            exec (.retireRoll e q) s = .next (settle (conclude x.no done (publish (without freed))))) ∧
          (r.state = .running → exec (.retireRoll e q) s = .next (settle (conclude x.no
            (refusal .inUse (senseVals [natVal (r.declared - r.u)])) u))) ∧
          (r.state = .spent → r.watch = none → r.refs = 0 → r.spindle = none →
            exec (.retireRoll e q) s = .next (settle (conclude x.no done
              { u with turret.rolls := u.turret.rolls.filter (fun y => y.tag != tag) }))) ∧
          (r.state = .spent → r.watch = none → ¬ (r.refs = 0 ∧ r.spindle = none) →
            exec (.retireRoll e q) s = .next (settle (holdRunning x.no
              (u.mapRoll tag (fun y => { y with watch := some x.no }))))) ∧
          (r.state = .spent → r.watch ≠ none → ∃ a, a.code = .wrongState ∧
            exec (.retireRoll e q) s = .next (settle (conclude x.no a u))))) ∧
  (∀ (tag : Nat) (s : State), s.inPress tag = true ↔ s.turret.seq = .pressing ∧
    ((∃ p, s.turret.outgoing = some p ∧ p.tag = tag) ∨ ∃ p, s.turret.incoming = some p ∧ p.tag = tag))

/-- R147: Mount Roll of a STAGED roll on an EMPTY spindle: with no roll RUNNING and the line in OFF, STANDBY or THREAD a threaded start,
which R123, R129, R140, R150 and R151 follow; otherwise the roll is MOUNTED. A MOUNTED or PREPARED roll on its own spindle is promoted in
the same case. A spindle that is not EMPTY refuses as IN_USE with the spindle as the record concerned, its state and its tag; a roll in
another state refuses as WRONG_STATE. The state and spindle that step 5 gives with WRONG_STATE are the model's choice (log entry 64). A key of
0 and a spindle code that names neither spindle refuse as BAD_PARAM, with the value found (the model's choice, log entry 64) and with the key
as the field where both hold (the model's choice, log entry 70); a tag not present is NO_RECORD. -/
def Obligations.MountRollStartsOrMounts : Prop :=
  (∀ (e : Env) (q : Req) (sp : U8) (s : State) (x : Entry) (r : Roll) (i : SpindleId),
    dispatches e q (.mountRoll sp) s x = true →
      let u := dispatched e q (.mountRoll sp) s x
      let tag := q.key.toNat
      let free := u.runningRoll = none ∧ (u.line.state = .off ∨ u.line.state = .standby ∨ u.line.state = .thread)
      let run := (u.mapRoll tag (fun y => { y with state := .running, spindle := some i, u := 0 })).mapSpindle i
        (fun y => { y with state := .feeding, tag := some tag })
      let started := triggerTest (publish (judgeSeq (judgePoint (judgeUnwind { run with head.again := true }))))
      let mounted := (u.mapRoll tag (fun y => { y with state := .mounted, spindle := some i })).mapSpindle i
        (fun y => { y with state := .loaded, tag := some tag })
      let answer := fun (d : Nat) (t : State) => { doneDetail d with
        params := [(2, [b8 t.turret.spinA.state.code, b8 t.turret.spinB.state.code])] }
      tag ≠ 0 → (sp = 1 ∧ i = .a ∨ sp = 2 ∧ i = .b) → u.findRoll tag = some r →
        (r.state = .staged → (u.spindle i).state = .empty → free →
          exec (.mountRoll e q sp) s = .next (settle (conclude x.no (answer 1 started) started))) ∧
        (r.state = .staged → (u.spindle i).state = .empty → ¬ free →
          exec (.mountRoll e q sp) s = .next (settle (conclude x.no (answer 2 mounted) mounted))) ∧
        (r.state = .mounted ∨ r.state = .prepared → r.spindle = some i → free →
          exec (.mountRoll e q sp) s = .next (settle (conclude x.no (answer 3 started) started))) ∧
        (r.state = .running ∨ r.state = .spent ∨ (r.state = .mounted ∨ r.state = .prepared) ∧ ¬ (r.spindle = some i ∧ free) →
          exec (.mountRoll e q sp) s = .next (settle (conclude x.no
            (refusal .wrongState (senseVals [natVal r.state.code, natVal (spindleCode r.spindle)])) u))) ∧
        (r.state = .staged → (u.spindle i).state ≠ .empty → exec (.mountRoll e q sp) s = .next (settle (conclude x.no
          (refusal .inUse ⟨0, some (match i with | .a => 1 | .b => 2),
            [natVal (u.spindle i).state.code, natVal (orZero (u.spindle i).tag)]⟩) u)))) ∧
  (∀ (e : Env) (q : Req) (sp : U8) (s : State) (x : Entry),
    dispatches e q (.mountRoll sp) s x = true →
      let u := dispatched e q (.mountRoll sp) s x
      let tag := q.key.toNat
      let refused := fun (a : Answer) => exec (.mountRoll e q sp) s = .next (settle (conclude x.no a u))
      (tag = 0 → refused (badField keyField [natVal tag])) ∧
      (tag ≠ 0 → sp ≠ 1 → sp ≠ 2 → refused (badField (fieldId 0 0) [natVal sp.toNat])) ∧
      (tag ≠ 0 → sp = 1 ∨ sp = 2 → u.findRoll tag = none → refused (refusal .noRecord Sense.none)))

/-- R158: Splice Now outside OFF and HALT, with a roll RUNNING and no other held, becomes the watch, is held RUNNING and sets the request
wish, the trigger test following (R151); otherwise it is refused. Held means the watch: a Splice Now that has completed and awaits its
return slot refuses no other (the model's choice, log entry 61). -/
def Obligations.SpliceNowSetsTheRequestWish : Prop :=
  ∀ (e : Env) (q : Req) (s : State) (x : Entry),
    dispatches e q .spliceNow s x = true →
      let u := dispatched e q .spliceNow s x
      (u.line.state = .off ∨ u.line.state = .halt → ∃ y, y.vals = [natVal u.line.state.code] ∧
        exec (.spliceNow e q) s = .next (settle (conclude x.no (refusal .wrongState y) u))) ∧
      (u.line.state ≠ .off → u.line.state ≠ .halt → u.runningRoll = none ∨ u.turret.now ≠ none →
        ∃ y, exec (.spliceNow e q) s = .next (settle (conclude x.no (refusal .wrongState y) u))) ∧
      (u.line.state ≠ .off → u.line.state ≠ .halt → u.runningRoll ≠ none → u.turret.now = none →
        exec (.spliceNow e q) s = .next (settle (changeWishes (fun t => { t with turret.request := true })
          (holdRunning x.no { u with turret.now := some x.no }))))

/-- R150: the point wish is judged by the RUNNING roll's remaining length against Rs; a splice is wanted while a roll is RUNNING and a wish
is set; outside PRESSING a change of wishes leaves the sequence PENDING while a splice is wanted and IDLE while none is, and one that
makes a splice wanted or unwanted recomputes the ceiling (before the trigger test: log entry 12); the
sequence judged alone goes by the same rule. R151, R152: the trigger test: PENDING
with the other spindle READY, in a moving state or, on request, STANDBY, with the store at the reserve level (not tested in STANDBY), no
arrival pending and F + P + A at or above the committed end plus the guard, the press begins: PRESSING, the two rolls and the deadline
noted, the tail mark clear, the press command on, the unwind stopped and the feed-stall watch suspended; in any other case nothing
happens. -/
def Obligations.SpliceWishesAndTrigger : Prop :=
  (∀ (s : State) (k : Consts), s.line.consts = some k →
    (∀ r, s.runningRoll = some r →
      judgePoint s = { s with turret.point := decide (r.declared - r.u ≤ k.rs) }) ∧
    (s.runningRoll = none → judgePoint s = { s with turret.point := false })) ∧
  (∀ (f : State → State) (s : State),
    let wants := fun (w : State) => w.runningRoll.isSome && (w.turret.point || w.turret.headWish || w.turret.request)
    let t := f s
    let u := { t with turret.seq :=
      if t.turret.seq = .pressing then .pressing else if wants t = true then .pending else .idle }
    (wants t = wants s → changeWishes f s = triggerTest u) ∧
    (wants t ≠ wants s → changeWishes f s = triggerTest (publish u))) ∧
  (∀ (s : State) (k : Consts) (i j : SpindleId), s.line.consts = some k → (i = .a ∧ j = .b ∨ i = .b ∧ j = .a) →
    let l := s.line.state
    let wanted := s.runningRoll ≠ none ∧ (s.turret.point = true ∨ s.turret.headWish = true ∨ s.turret.request = true)
    let ready := s.turret.seq = .pending ∧ wanted ∧ (s.spindle j).state = .ready ∧
      (l = .thread ∨ l = .starting ∨ l = .run ∨ l = .hold ∨ l = .stopping ∨ l = .standby ∧ s.turret.request = true) ∧
      (l = .standby ∨ k.reserve ≤ s.line.store) ∧ s.head.arrival = none ∧
      s.head.committed + k.guardLen ≤ s.head.f + k.p + s.line.store
    (s.spindle i).state = .feeding →
      (¬ ready → triggerTest s = s) ∧
      (ready → triggerTest s = { s with
        turret.seq := .pressing, turret.pressOut := true, turret.tail := false
        turret.outgoing := some ⟨(s.spindle i).tag.getD 0, i⟩, turret.incoming := some ⟨(s.spindle j).tag.getD 0, j⟩
        turret.press := some ⟨s.line.clock, 1000 * k.spliceTimeout⟩, line.unwind := false, line.stall := none })) ∧
  (∀ s : State, (s.spindle .a).state ≠ .feeding → (s.spindle .b).state ≠ .feeding → triggerTest s = s) ∧
  (∀ s : State,
    let wants := s.runningRoll.isSome && (s.turret.point || s.turret.headWish || s.turret.request)
    (s.turret.seq = .pressing → judgeSeq s = s) ∧
    (s.turret.seq ≠ .pressing → wants = true → judgeSeq s = { s with turret.seq := .pending }) ∧
    (s.turret.seq ≠ .pressing → wants = false → judgeSeq s = { s with turret.seq := .idle }))

/-! ### Orders and alignment -/

/-- R51, R53, R61: Place Order that passes every check adds a QUEUED record with its use count, reports its place, counted from 0, with T
and the output length measured, and completes as DONE, or with notify is held RUNNING as the order's watch (with figures that fault it
completes at once, log entry 9); the candidate is reported to the head after the completion (the model's order, log entry 37). R51, R52: its
checks in their order; each refusal leaves the queue as it was: the values, the line constants for a MARKED order, the slot, a live panel
that carries the tag, named by the id of the oldest, a record that holds it, a full queue, and against the next page the grade check, the
limits at the RUNNING roll's k, and the registration fit. R178: a FREE or RETIRING slot is the record concerned of its refusal, by the
pattern number. A live panel that carries the tag is the oldest not EXITED, and the key of that refusal is the order tag (the model's
choice, log entry 63). The values pass exactly when each lies in the range of R51; with several out of range the first in the sequence of
step 1 is named (the model's choice, log entry 70). -/
def Obligations.PlaceOrderDecided : Prop :=
  (∀ (e : Env) (q : Req) (a : OrderArgs) (s : State) (x : Entry) (p : Page),
    dispatches e q (.placeOrder a) s x = true →
      let u := dispatched e q (.placeOrder a) s x
      let n := a.pattern.toNat
      let y := u.slot n
      let o : Order :=
        { tag := q.key.toNat, pattern := n, size := a.size.toNat, cls := if a.cls.toNat = 1 then .rush else .normal
          n := a.n.toNat, m := a.n.toNat, formed := 0, good := 0, reject := 0, remakeLimit := a.remakes.toNat, remakes := 0
          marks := if a.reg.toNat = 1 then some ⟨a.mult.toNat, a.offset.toNat, a.rep.toNat⟩ else none
          page := none, live := 0, cancel := false, watch := none, state := .queued }
      let v := { u with
        orders := u.orders ++ [o], lib.slots := u.lib.slots.modify n (fun z => { z with uses := z.uses + 1 }) }
      let m := p.measure o.size u.runningK
      let place := v.queueSeq.findIdx (fun z => z.tag == o.tag)
      let figures := doneParams [(0x0C, [b8 place]), (0x10, le 4 m.t ++ le 4 m.out)]
      let w := paramWrites q.block.toNat figures.params
      let refused := fun (r : Answer) => exec (.placeOrder e q a) s = .next (settle (conclude x.no r u))
      let fits := ∀ r, o.marks = some r → r.fits m.t u.k.gap = true
      orderFail q a = none → (a.reg.toNat = 1 → u.line.consts ≠ none) → y.busy = false → y.state = .active →
      y.nextPage = some p → u.findOrder o.tag = none → u.carrier o.tag = none → u.orders.length < 32 →
        (∀ g, p.gradeCheck o.size = some g → refused (refusal .gradeRange (gradeSense g o.size (some o.tag)))) ∧
        (p.gradeCheck o.size = none → m.ok = false → refused (refusal .fit { fitSense m with key := some o.tag })) ∧
        (∀ r, p.gradeCheck o.size = none → m.ok = true → o.marks = some r → r.fits m.t u.k.gap = false →
          refused (refusal .fit ⟨0, some o.tag, [natVal m.t, natVal u.k.gap, natVal (r.mult * r.rep)]⟩)) ∧
        (p.gradeCheck o.size = none → m.ok = true → fits → (a.notify = true → v.storeOk w = false) →
          exec (.placeOrder e q a) s = .next (settle (reportCandidate (conclude x.no figures v)))) ∧
        (p.gradeCheck o.size = none → m.ok = true → fits → a.notify = true → v.storeOk w = true →
          exec (.placeOrder e q a) s = .next (settle (reportCandidate
            (holdRunning x.no ((v.store w).mapOrder o.tag (fun z => { z with watch := some x.no }))))))) ∧
  (∀ (e : Env) (q : Req) (a : OrderArgs) (s : State) (x : Entry),
    dispatches e q (.placeOrder a) s x = true →
      let u := dispatched e q (.placeOrder a) s x
      let y := u.slot a.pattern.toNat
      let refused := fun (r : Answer) => exec (.placeOrder e q a) s = .next (settle (conclude x.no r u))
      (∀ r, orderFail q a = some r → refused r) ∧
      (orderFail q a = none → a.reg.toNat = 1 → u.line.consts = none → refused (refusal .wrongState Sense.none)) ∧
      (orderFail q a = none → (a.reg.toNat = 1 → u.line.consts ≠ none) →
        (y.busy = true → exec (.placeOrder e q a) s = .next (settle (holdWaiting x.no (.slot a.pattern.toNat) u))) ∧
        (y.busy = false → y.state = .free → refused (refusal .noRecord ⟨0, some a.pattern.toNat, []⟩)) ∧
        (y.busy = false → y.state = .retiring → refused (refusal .wrongState ⟨0, some a.pattern.toNat, []⟩)) ∧
        (∀ p, y.busy = false → y.state = .active → y.nextPage = some p →
          (∀ z, u.carrier q.key.toNat = some z → refused (refusal .duplicate (senseVals [natVal z.id]))) ∧
          (∀ o, u.carrier q.key.toNat = none → u.findOrder q.key.toNat = some o → refused (refusal .duplicate Sense.none)) ∧
          (u.findOrder q.key.toNat = none → u.carrier q.key.toNat = none → 32 ≤ u.orders.length →
            refused (refusal .tableFull (senseVals [natVal (u.orders.countP (fun o => o.state == .awaitingExit))])))))) ∧
  (∀ (q : Req) (a : OrderArgs),
    (orderFail q a = none ↔ (1 ≤ q.key.toNat ∧ q.key.toNat ≤ 65535) ∧ a.pattern.toNat ≤ 47 ∧ a.size.toNat ≤ 11 ∧
      (1 ≤ a.cls.toNat ∧ a.cls.toNat ≤ 2) ∧ a.reg.toNat ≤ 1 ∧ (1 ≤ a.n.toNat ∧ a.n.toNat ≤ 999) ∧ a.remakes.toNat ≤ 15 ∧
      (a.reg.toNat = 1 → (1 ≤ a.mult.toNat ∧ a.mult.toNat ≤ 12) ∧ a.offset.toNat ≤ 5000 ∧
        500 ≤ a.rep.toNat ∧ a.rep.toNat ≤ 20000)) ∧
    (∀ r, orderFail q a = some r → r.code = .badParam) ∧
    (let bad := fun (field v : Nat) => orderFail q a = some (badField field [natVal v])
     let key := 1 ≤ q.key.toNat ∧ q.key.toNat ≤ 65535
     let first := key ∧ a.pattern.toNat ≤ 47 ∧ a.size.toNat ≤ 11
     let codes := first ∧ (1 ≤ a.cls.toNat ∧ a.cls.toNat ≤ 2) ∧ a.reg.toNat ≤ 1
     let counts := codes ∧ (1 ≤ a.n.toNat ∧ a.n.toNat ≤ 999) ∧ a.remakes.toNat ≤ 15
     let mult := 1 ≤ a.mult.toNat ∧ a.mult.toNat ≤ 12
     (¬ key → bad keyField q.key.toNat) ∧
     (key → 47 < a.pattern.toNat → bad (fieldId 0 0) a.pattern.toNat) ∧
     (key → a.pattern.toNat ≤ 47 → 11 < a.size.toNat → bad (fieldId 0 1) a.size.toNat) ∧
     (first → ¬ (1 ≤ a.cls.toNat ∧ a.cls.toNat ≤ 2) → bad (fieldId 0 2) a.cls.toNat) ∧
     (first → (1 ≤ a.cls.toNat ∧ a.cls.toNat ≤ 2) → 1 < a.reg.toNat → bad (fieldId 0 3) a.reg.toNat) ∧
     (codes → ¬ (1 ≤ a.n.toNat ∧ a.n.toNat ≤ 999) → bad (fieldId 0 4) a.n.toNat) ∧
     (codes → (1 ≤ a.n.toNat ∧ a.n.toNat ≤ 999) → 15 < a.remakes.toNat → bad (fieldId 0 6) a.remakes.toNat) ∧
     (counts → a.reg.toNat = 1 → ¬ mult → bad (fieldId 0 7) a.mult.toNat) ∧
     (counts → a.reg.toNat = 1 → mult → 5000 < a.offset.toNat → bad (fieldId 0 8) a.offset.toNat) ∧
     (counts → a.reg.toNat = 1 → mult → a.offset.toNat ≤ 5000 → ¬ (500 ≤ a.rep.toNat ∧ a.rep.toNat ≤ 20000) →
       bad (fieldId 0 10) a.rep.toNat))) ∧
  (∀ (tag : Nat) (s : State),
    (∀ older p newer, s.web.panels = older ++ p :: newer → p.order = tag → p.state ≠ .exited →
      (∀ y ∈ older, y.order = tag → y.state = .exited) → s.carrier tag = some p) ∧
    ((∀ p ∈ s.web.panels, p.order = tag → p.state = .exited) → s.carrier tag = none))

/-- R59: Cancel Order by the order's state: a QUEUED order leaves the queue and its notify watch ends as CANCELLED, before the Cancel
completes (log entry 37) and with the cancel mark as it stood (log entry 40: both the model's choice); an order whose panel is FORMING is
marked, and with the cut flag its panel is cut; one FORMING between panels is released; one in AWAITING_EXIT is marked. R4, R16: an order
record that leaves the queue lowers the use count of its slot by one; a RETIRING slot whose count falls to 0 becomes FREE, with no page, and
its Retire Pattern completes as DONE. A panel of the order is FORMING when the head's panel names it. -/
def Obligations.CancelOrderByState : Prop :=
  (∀ (e : Env) (q : Req) (cut : Bool) (s : State) (x : Entry) (o : Order),
    dispatches e q (.cancelOrder cut) s x = true →
      let u := dispatched e q (.cancelOrder cut) s x
      let tag := q.key.toNat
      let marked := u.mapOrder tag (fun y => { y with cancel := true })
      let answers := fun (d : Nat) (t : State) =>
        exec (.cancelOrder e q cut) s = .next (settle (conclude x.no (doneDetail d) t))
      1 ≤ tag → tag ≤ 65535 → u.findOrder tag = some o →
        (o.state = .queued → answers 1 (concludeWatch o.watch (endAnswer o true) (removeOrder o u))) ∧
        (o.state = .forming → u.panelForming tag = true → cut = false → answers 2 marked) ∧
        (o.state = .forming → u.panelForming tag = true → cut = true → answers 3 (cutByRequest marked)) ∧
        (o.state = .forming → u.panelForming tag = false → answers 4 (releaseOrder tag marked)) ∧
        (o.state = .awaitingExit → answers 5 marked)) ∧
  (∀ (o : Order) (s : State),
    let y := s.slot o.pattern
    let rest := s.orders.filter (fun z => z.tag != o.tag)
    let put := fun (f : Slot → Slot) => { s with orders := rest, lib.slots := s.lib.slots.modify o.pattern f }
    (¬ (y.state = .retiring ∧ y.uses ≤ 1) → removeOrder o s = put (fun z => { z with uses := z.uses - 1 })) ∧
    (y.state = .retiring → y.uses ≤ 1 → removeOrder o s = concludeWatch y.watch done (put (fun z =>
      { state := .free, busy := z.busy, prot := z.prot, pageA := none, pageB := none, live := none, flip := false
        uses := 0, watch := none })))) ∧
  (∀ (tag : Nat) (s : State), s.panelForming tag = true ↔
    ∃ id, s.head.panel = some id ∧ ((s.findPanel id).map Panel.order).getD 0 = tag)

/-- R50, R54, R55: the queue asked for an order. The candidate is the first QUEUED order of the RUSH list, else of the NORMAL list. The
library takes a pending flip; the order is tested against its live page: the grade check, the limits at the RUNNING roll's k, and the
registration fit. One that passes becomes FORMING with that page letter, and the head has it, its drain over (R79) and its registration
SEEKING with no expected start (R77; that a FREE order too returns it to SEEKING is the model's inference, log entry 41). One that fails
leaves the queue with its use count, its notify watch ends with the code of the failure and its counts, and the next candidate is asked,
until one binds or none remains. R27: the k is that of the RUNNING roll's class, 0 without one. R51: the registration fit. -/
def Obligations.CandidatesBindInTurn : Prop :=
  (∀ s : State,
    let queued := fun (c : OrderClass) => s.orders.find? (fun o => o.state == .queued && o.cls == c)
    (∀ o, queued .rush = some o → s.candidate = some o) ∧ (queued .rush = none → s.candidate = queued .normal)) ∧
  (∀ (n : Nat) (s : State) (o : Order), s.candidate = some o →
    let t := { s with lib.slots := s.lib.slots.modify o.pattern (fun y =>
      if y.flip = true then { y with live := y.live.map Letter.other, flip := false } else y) }
    let y := t.slot o.pattern
    let letter := y.live.getD .a
    ∀ p, y.page letter = some p →
      let m := p.measure o.size t.runningK
      let fails := fun (a : Answer) => askOrder (n + 1) s = askOrder n
        (concludeWatch o.watch { a with params := a.params ++ [(0x10, o.counts)] } (removeOrder o t))
      let fits := ∀ r, o.marks = some r → r.fits m.t s.k.gap = true
      (∀ g, p.gradeCheck o.size = some g → fails (refusal .gradeRange (gradeSense g o.size (some o.tag)))) ∧
      (p.gradeCheck o.size = none → m.ok = false → fails (refusal .fit { fitSense m with key := some o.tag })) ∧
      (∀ r, p.gradeCheck o.size = none → m.ok = true → o.marks = some r → r.fits m.t s.k.gap = false →
        fails (refusal .fit ⟨0, some o.tag, [natVal m.t, natVal s.k.gap, natVal (r.mult * r.rep)]⟩)) ∧
      (p.gradeCheck o.size = none → m.ok = true → fits → askOrder (n + 1) s = { t with
        orders := s.orders.map (fun z => if z.tag = o.tag then { z with state := .forming, page := some letter } else z)
        head.bound := some ⟨o.tag, o.pattern, o.size, letter, o.marks⟩
        head.counting := false, head.expected := none, head.drainSpent := false
        head.run := s.head.run.filter (fun r => r.purpose = .gap ∨ r.purpose = .guard ∨ r.purpose = .splice) })) ∧
  (∀ s : State, s.head.bound = none → (askOrder s.orders.length s).head.bound ≠ none ∨
    (askOrder s.orders.length s).candidate = none) ∧
  (∀ s : State, (s.runningRoll = none → s.runningK = 0) ∧
    (∀ r f, s.runningRoll = some r → s.fibre r.cls = some f → s.runningK = f.k)) ∧
  (∀ (r : Marks) (t gap : Nat), r.fits t gap = true ↔ t + gap ≤ r.mult * r.rep)

/-- R85: Align Blade in THREAD, with a blade roll, none running and a place in the segment list, makes the alignment INVALID with its offset
kept and is held RUNNING; the head is ALIGNING and its trials begin at phase step 0, in a TRIAL run whose segment is opened for the blade
roll, or behind a passage in progress, whose run and segment go on (log entry 17). The next state is given whole, and what it holds of
these. Where the opening of that segment ends a retirement and its post meets a ring fault, the entry of the trials is dropped and they go on
without one (R172, R175; DEDUCED, log entry 72). A state other than THREAD is refused before a full segment list (the model's choice, log
entry 70). R85: the outcome of a trial at step s: EARLY below step 255 goes on at s + 1; LATE at s of 1 or more locks: offset s, alignment
VALID, DONE with the offset and the trials made; LATE at step 0 and EARLY at 255 end as ALIGN_RANGE with the step and the result, the offset
kept (PRESENT and ABSENT count as EARLY). At the end the head is FLAT, in a THREAD run, or behind a passage. R68, R85: a trial wanted is a
chunk of 200, or as many as are left, ended at S_a - guard when that lies ahead; whole it carries one right stroke of 50 + overtravel at 200
+ s and is the trial at s, shortened it is a plain chunk. That this place has no alignment offset is the model's choice (log entry 18). R85,
R86: in THREAD the end posts the answer, closes a newest TRIAL segment, withdraws a trial still wanted with no passage in progress, and
makes a unit in flight no trial; the next state is given whole. -/
def Obligations.AlignBladeTrials : Prop :=
  (∀ (e : Env) (q : Req) (s : State) (x : Entry) (roll : Nat),
    dispatches e q .alignBlade s x = true →
      let u := dispatched e q .alignBlade s x
      u.bladeRoll = some roll →
        (u.line.state ≠ .thread ∨ u.head.align ≠ none → exec (.alignBlade e q) s = .next (settle (conclude x.no
          (refusal .wrongState (senseVals [natVal u.line.state.code])) u))) ∧
        (u.line.state = .thread → u.head.align = none → 128 ≤ u.web.segs.length →
          exec (.alignBlade e q) s = .next (settle (conclude x.no (refusal .tableFull Sense.none) u))) ∧
        (u.line.state = .thread → u.head.align = none → u.web.segs.length < 128 →
          let v := holdRunning x.no { u with
            head.aligned := false, head.align := some ⟨some x.no, 0, 0, none⟩, head.state := .aligning }
          let t := if u.head.passage = .none then
              { appendSeg .trial roll none v with head.run := some ⟨.trial, none, true, none⟩, head.again := true }
            else { v with head.suspended := some ⟨.trial, none, false, none⟩, head.again := true }
          exec (.alignBlade e q) s = .next (settle t) ∧
          t.head.aligned = false ∧ t.head.offset = u.head.offset ∧
          (t.port.state = u.port.state → t.head.align = some ⟨some x.no, 0, 0, none⟩) ∧
          (t.port.state ≠ u.port.state → t.head.align = some ⟨none, 0, 0, none⟩) ∧
          t.head.state = .aligning ∧ t.head.again = true ∧
          (v.entry x.no).map Entry.stage = some .running ∧
          (u.head.passage = .none → t.head.run = some ⟨.trial, none, true, none⟩ ∧
            ∃ o, t.web.segs.getLast? = some ⟨u.web.nextSeg, .trial, roll, none, u.head.f, none, o, none⟩) ∧
          (u.head.passage ≠ .none → t.head.suspended = some ⟨.trial, none, false, none⟩ ∧ t.head.run = u.head.run ∧
            t.web.segs = u.web.segs ∧ t.head.align = some ⟨some x.no, 0, 0, none⟩ ∧ t.entry x.no = v.entry x.no))) ∧
  (∀ (e : Env) (q : Req) (s : State) (x : Entry),
    dispatches e q .alignBlade s x = true →
      let u := dispatched e q .alignBlade s x
      u.bladeRoll = none → exec (.alignBlade e q) s = .next (settle (conclude x.no
        (refusal .wrongState (senseVals [natVal u.line.state.code])) u))) ∧
  (∀ (s : State) (a : Align) (step : Nat) (r : Crease), s.head.align = some a →
    let b := { a with made := a.made + 1, last := some r }
    let t := { s with head.align := some b }
    let late := r = .late
    (late → 1 ≤ step → trialOutcome step r s = finishAlign b
      (doneParams [(0, [b8 step]), (2, le 2 (a.made + 1))]) { t with head.aligned := true, head.offset := step }) ∧
    (late → step = 0 → trialOutcome step r s = finishAlign b (refusal .alignRange (senseVals [0, natVal (trialCode true)])) t) ∧
    (¬ late → step = 255 →
      trialOutcome step r s = finishAlign b (refusal .alignRange (senseVals [255, natVal (trialCode false)])) t) ∧
    (¬ late → step ≠ 255 → trialOutcome step r s = { t with head.align := some { b with step := step + 1 } })) ∧
  (∀ (a : Align) (ans : Answer) (s : State), s.line.state = .thread →
    let t := finishAlign a ans s
    t.head.align = none ∧ t.head.state = .flat ∧ t.head.again = true ∧ t.head.aligned = s.head.aligned ∧
    t.head.offset = s.head.offset ∧ t.head.f = s.head.f ∧ t.head.o = s.head.o ∧
    (s.head.passage = .none → t.head.run = some ⟨.thread, none, false, none⟩) ∧
    (s.head.passage ≠ .none → t.head.suspended = some ⟨.thread, none, false, none⟩ ∧ t.head.run = s.head.run)) ∧
  (∀ (s : State) (k : Consts) (r : Run) (a : Align) (roll : Nat), s.line.consts = some k → s.bladeRoll = some roll →
    let room := match r.remaining with
      | some n => min 200 n
      | none => 200
    let len := match s.head.arrival, s.head.passage with
      | some y, .none => if s.head.f < y.pos - k.guardLen then min room (y.pos - k.guardLen - s.head.f) else room
      | _, _ => room
    let wants := fun (t : State) => { t with
      head.wanted := some (if len = 200 then ⟨false, 200, 200, [⟨50 + k.overtravel, true, 200 + a.step⟩], some a.step⟩
        else ⟨false, len, len, [], none⟩) }
    (r.opened = true → wantTrial r a s = wants { s with head.run := some r }) ∧
    (r.opened = false → r.purpose = .trial →
      let opened := openSeg .trial (r.roll.getD roll) none { s with head.run := some r }
      (opened = none → wantTrial r a s = raiseReason .mapFull { s with head.run := some r, head.mapNeed := 1 }) ∧
      (∀ t, opened = some t → t.head.f = s.head.f → t.head.arrival = s.head.arrival → t.head.passage = s.head.passage →
        t.line.consts = s.line.consts →
        wantTrial r a s = wants { t with head.run := some { r with opened := true } }))) ∧
  (∀ (a : Align) (ans : Answer) (s : State), s.line.state = .thread →
    let told := concludeWatch a.entry ans s
    let shut := if s.web.segs.getLast?.map Segment.kind = some .trial then closeNewest told else told
    let idle := if shut.head.wanted ≠ none ∧ shut.head.passage = .none then
      { shut with head.wanted := none, line.starved := false, line.stall := none } else shut
    let v := { idle with
      head.align := none, head.state := .flat, head.again := true
      head.flight := idle.head.flight.map (fun (f : Flight) => { f with unit.trial := none }) }
    let run : Run := ⟨.thread, none, false, none⟩
    (s.head.passage = .none → finishAlign a ans s = { v with head.run := some run }) ∧
    (s.head.passage ≠ .none → finishAlign a ans s = { v with head.suspended := some run }))

/-! ### Reads -/

/-- R46, R160: Read Roll returns one record in the parameter area, or with key 0 every whole record that fits in the data area. R62: Read
Order returns one record in the parameter area, or with key 0 the records in queue sequence, as many as fit, with the number present and the
binding candidate's tag. R103: Read Panel returns one panel's record, as far as the data area holds it (R167), or with key 0 the summary and
every whole record that fits, in creation order. R104: Read Web Map returns the summary of the segment list with F and O, and every whole
record that fits, oldest first. R125: Read Zones gives the shared parameters, the ceiling and the chest's summary, the four zone records
and, with the cells flag, the 64 cell records, as far as the data area holds whole records. R145: Read Line Status gives the line, speed and
accumulator parts in the parameter area and the head record, with the constants flag the line constants after it, as whole fields, in the
data area. The model's choices here: the residual of one panel record is the number of its bytes not written (log entry 52), an empty
segment list gives 0 for its oldest and newest number (log entry 53), and the zone lengths are four fields of one byte (log entry 55). R167:
bytes written out fill the area, or its segments in list order, and stop at the end of the last. R62: the place of an order in queue
sequence counts from 0. A key above 65,535 is refused as BAD_PARAM with the key as its value (the model's choice, log entry 64). Where no rule
orders them, the parameter area is written before the data area (the model's choice, log entry 9), and a Splice Now counts as held while its
watch is present (the model's choice, log entry 61). -/
def Obligations.ReadsReturnTheirRecords : Prop :=
  (∀ (e : Env) (q : Req) (s : State) (x : Entry),
    dispatches e q .readRoll s x = true →
      let u := dispatched e q .readRoll s x
      let fit := u.turret.rolls.take (dataTotal q.data / 32)
      (q.key = 0 → exec (.readRoll e q) s = .next (conclude x.no
        { doneParams u.rollSummary with
          data := dataBytes q.data (fit.map Roll.bytes).flatten
          residual := 32 * (u.turret.rolls.length - fit.length) } u)) ∧
      (∀ r, q.key ≠ 0 → u.findRoll q.key.toNat = some r →
        exec (.readRoll e q) s = .next (conclude x.no (doneParams [(0, r.bytes)]) u)) ∧
      (q.key ≠ 0 → u.findRoll q.key.toNat = none →
        exec (.readRoll e q) s = .next (conclude x.no (refusal .noRecord Sense.none) u))) ∧
  (∀ (e : Env) (q : Req) (s : State) (x : Entry),
    dispatches e q .readOrder s x = true →
      let u := dispatched e q .readOrder s x
      let tag := q.key.toNat
      let fit := u.queueSeq.take (dataTotal q.data / 32)
      (65535 < tag → exec (.readOrder e q) s = .next (conclude x.no (badField keyField [natVal tag]) u)) ∧
      (tag = 0 → exec (.readOrder e q) s = .next (conclude x.no
        { doneParams [(0, [b8 u.orders.length]), (2, le 2 ((u.candidate.map Order.tag).getD 0))] with
          data := dataBytes q.data (fit.map (fun o => o.bytes (u.place o.tag))).flatten
          residual := 32 * (u.queueSeq.length - fit.length) } u)) ∧
      (∀ o, 1 ≤ tag → tag ≤ 65535 → u.findOrder tag = some o →
        exec (.readOrder e q) s = .next (conclude x.no (doneParams [(0, o.bytes (u.place tag))]) u)) ∧
      (1 ≤ tag → tag ≤ 65535 → u.findOrder tag = none →
        exec (.readOrder e q) s = .next (conclude x.no (refusal .noRecord Sense.none) u))) ∧
  (∀ (e : Env) (q : Req) (s : State) (x : Entry),
    dispatches e q .readPanel s x = true →
      let u := dispatched e q .readPanel s x
      let id := q.key.toNat
      let count := fun st => u.web.panels.countP (fun p => p.state == st)
      let fit := u.web.panels.take (dataTotal q.data / 72)
      (65535 < id → exec (.readPanel e q) s = .next (conclude x.no (badField keyField [natVal id]) u)) ∧
      (id = 0 → exec (.readPanel e q) s = .next (conclude x.no
        { doneParams [(0, [b8 (count .forming), b8 (count .inPath), b8 (count .exited), b8 (64 - u.web.panels.length)] ++
            le 2 u.web.nextPanel ++ [b8 u.web.awaits.length])] with
          data := dataBytes q.data (fit.map u.panelRecord).flatten, residual := 72 * (u.web.panels.length - fit.length) } u)) ∧
      (∀ p, 1 ≤ id → id ≤ 65535 → u.findPanel id = some p → exec (.readPanel e q) s = .next (conclude x.no
        { doneParams [] with
          data := dataBytes q.data (u.panelRecord p), residual := 72 - dataTotal q.data } u)) ∧
      (1 ≤ id → id ≤ 65535 → u.findPanel id = none →
        exec (.readPanel e q) s = .next (conclude x.no (refusal .noRecord Sense.none) u))) ∧
  (∀ (e : Env) (q : Req) (s : State) (x : Entry),
    dispatches e q .readWebMap s x = true →
      let u := dispatched e q .readWebMap s x
      let fit := u.web.segs.take (dataTotal q.data / 40)
      exec (.readWebMap e q) s = .next (conclude x.no
        { doneParams [(0, [b8 u.web.segs.length, b8 (128 - u.web.segs.length)] ++
            le 2 ((u.web.segs.head?.map Segment.number).getD 0) ++ le 2 ((u.web.segs.getLast?.map Segment.number).getD 0) ++
            le 2 u.web.nextSeg ++ le 6 u.head.f ++ le 6 u.head.o)] with
          data := dataBytes q.data (fit.map Segment.bytes).flatten
          residual := 40 * (u.web.segs.length - fit.length) } u)) ∧
  (∀ (e : Env) (q : Req) (cells : Bool) (s : State) (x : Entry),
    dispatches e q (.readZones cells) s x = true →
      let u := dispatched e q (.readZones cells) s x
      let p := u.chest.par
      let records := u.chest.zones.mapIdx (fun i z => z.bytes (i + 1) u.line.clock) ++
        (if cells then u.chest.cells.mapIdx (fun i c => c.bytes i) else [])
      let fit := fieldsFit (dataTotal q.data) records
      exec (.readZones e q cells) s = .next (conclude x.no
        { doneParams [(0, le 2 p.band ++ le 2 p.drop ++ le 2 p.stepUp ++ le 2 p.stepDown ++ le 2 p.leapAt ++ le 2 p.leapDown ++
            [b8 u.line.ceiling, b8 (u.line.limiting.getD 0), b8 u.classBits, b8 (flagNat u.line.zonesReady),
              b8 (u.chest.cells.countP (fun c => c.fill.isSome))]), (0x12, le 6 u.chest.entry)] with
          data := dataBytes q.data fit.flatten, residual := records.flatten.length - fit.flatten.length } u)) ∧
  (∀ (e : Env) (q : Req) (flag : Bool) (s : State) (x : Entry) (k : Consts),
    dispatches e q (.readLineStatus flag) s x = true →
      let u := dispatched e q (.readLineStatus flag) s x
      let fields := u.headFields ++ (if flag then constsFields k else [])
      let fit := fieldsFit (dataTotal q.data) fields
      u.line.consts = some k ∨ flag = false →
        exec (.readLineStatus e q flag) s = .next (conclude x.no
          { doneParams [(0, u.lineStatus)] with
            data := dataBytes q.data fit.flatten, residual := fields.flatten.length - fit.flatten.length } u)) ∧
  (∀ (a : U32) (n : U16) (gs : List DataSeg) (bs : List Byte),
    let cells := fun (p len : Nat) => (List.range len).map (fun i => p + i)
    dataTotal (.contiguous a n) = n.toNat ∧ dataTotal (.segmented gs) = (gs.map (fun g => g.len.toNat)).sum ∧
    dataBytes (.contiguous a n) bs = (cells a.toNat n.toNat).zip bs ∧
    dataBytes (.segmented gs) bs = (gs.map (fun g => cells g.addr.toNat g.len.toNat)).flatten.zip bs) ∧
  (∀ (s : State) (before after : List Order) (o : Order), s.queueSeq = before ++ o :: after →
    (∀ y ∈ before, y.tag ≠ o.tag) → s.place o.tag = before.length)

/-! ### Panels and the web -/

/-- R99, R100: Await Panel Exit with a data area of at least 72 bytes takes the oldest EXITED panel at once: a delivery whose writes do not
fault frees it and reports the freed record, one that faults completes and leaves it EXITED; with none it is held RUNNING at the end of
the waiting list. R98, R100, R101: a panel offered at its exit to the Awaits that wait. The oldest leaves the list and completes with
the panel; where no write of the delivery faults the panel is freed and the freed record reported; where one faults the panel stays
EXITED and is offered to the next; with none left nothing happens. A panel freed leaves the table and the exit order. That a delivery
writes the panel record before the parameter area, and that a fault on the parameter area counts as one on the record, are the model's
choice (log entry 9). -/
def Obligations.AwaitPanelExitDeliversOrWaits : Prop :=
  (∀ (e : Env) (q : Req) (s : State) (x : Entry),
    dispatches e q .awaitPanelExit s x = true →
      let u := dispatched e q .awaitPanelExit s x
      let delivers := fun (p : Panel) => { doneParams [(0, le 2 (u.web.exits.filter (fun n => n != p.id)).length)] with
        data := dataBytes q.data (u.panelRecord p), dataFirst := true }
      let ok := fun (p : Panel) =>
        u.storeOk ((delivers p).data ++ paramWrites q.block.toNat (delivers p).params)
      (dataTotal q.data < 72 → exec (.awaitPanelExit e q) s = .next (settle (conclude x.no
        (badField lenField [natVal (dataTotal q.data), 72]) u))) ∧
      (72 ≤ dataTotal q.data → u.web.exits = [] → exec (.awaitPanelExit e q) s = .next (settle
        (holdRunning x.no { u with web.awaits := u.web.awaits ++ [x.no] }))) ∧
      (∀ id rest p, 72 ≤ dataTotal q.data → u.web.exits = id :: rest → u.findPanel id = some p → ok p = true →
        exec (.awaitPanelExit e q) s = .next (settle (freePanel id (conclude x.no (delivers p) u)))) ∧
      (∀ id rest p, 72 ≤ dataTotal q.data → u.web.exits = id :: rest → u.findPanel id = some p → ok p = false →
        exec (.awaitPanelExit e q) s = .next (settle (conclude x.no (delivers p) u)))) ∧
  (∀ (id : Nat) (s : State), offerTo [] id s = s) ∧
  (∀ (no : Nat) (rest : List Nat) (id : Nat) (s : State) (y : Entry) (q : Req) (c : Call) (p : Panel),
    s.entry no = some y → y.req = some (q, c) → s.findPanel id = some p →
      let v := { s with web.awaits := s.web.awaits.filter (fun n => n != no) }
      let a := { doneParams [(0, le 2 (s.web.exits.filter (fun n => n != p.id)).length)] with
        data := dataBytes q.data (v.panelRecord p), dataFirst := true }
      let ok := v.storeOk (a.data ++ paramWrites q.block.toNat a.params)
      (ok = true → offerTo (no :: rest) id s = freePanel id (conclude no a v)) ∧
      (ok = false → offerTo (no :: rest) id s = offerTo rest id (conclude no a v))) ∧
  (∀ (id : Nat) (s : State), freePanel id s = reportRecord { s with
    web.panels := s.web.panels.filter (fun p => p.id != id), web.exits := s.web.exits.filter (fun n => n != id) })

/-- R102, whole (a key above 65535 is refused as BAD_PARAM by 11_formats.md): what Release Panel refuses, and that an EXITED panel leaves
the table and the exit order, the request completing as DONE and the freed record being reported to the head. That the freed record is
reported before the completion is posted is the model's choice (log entry 37). -/
def Obligations.ReleasePanelFollowsR102 : Prop :=
  ∀ (e : Env) (q : Req) (s : State) (x : Entry),
    dispatches e q .releasePanel s x = true →
      let u := dispatched e q .releasePanel s x
      let id := q.key.toNat
      (id = 0 ∨ 65535 < id → ∃ y, exec (.releasePanel e q) s = .next (settle (conclude x.no (refusal .badParam y) u))) ∧
      (1 ≤ id → id ≤ 65535 → u.findPanel id = none →
        ∃ y, exec (.releasePanel e q) s = .next (settle (conclude x.no (refusal .noRecord y) u))) ∧
      (∀ p, 1 ≤ id → id ≤ 65535 → u.findPanel id = some p → p.state = .forming ∨ p.state = .inPath →
        ∃ y, y.vals = [natVal p.state.code] ∧
          exec (.releasePanel e q) s = .next (settle (conclude x.no (refusal .wrongState y) u))) ∧
      (∀ p, 1 ≤ id → id ≤ 65535 → u.findPanel id = some p → p.state = .exited →
        exec (.releasePanel e q) s = .next (settle (conclude x.no done (reportRecord { u with
          web.panels := u.web.panels.filter (fun y => y.id != id), web.exits := u.web.exits.filter (fun y => y != id) }))))

/-- R105, R121: Purge Web in OFF or STANDBY with no unit in flight empties every cell, keeping its lower bound, removes every closed
segment, oldest first, each lowering its roll's count, only then judges the panels of those segments PURGED in list order, cuts an open
segment back to zero length, reports the places and recomputes the ceiling; elsewhere it is refused. The reasons of a purged panel: PURGED,
CUT and UNREGISTERED as recorded, MISSED_FOLDS by the tolerance, and neither UNDERSET nor SCORCHED; it is a REJECT. Outside OFF and STANDBY
the sense data gives the line state also with a unit in flight (the model's choice, log entry 71). -/
def Obligations.PurgeWebEmptiesTheMap : Prop :=
  (∀ (e : Env) (q : Req) (s : State) (x : Entry),
    dispatches e q .purgeWeb s x = true →
      let u := dispatched e q .purgeWeb s x
      let closed := u.web.segs.filter (fun g => g.fEnd.isSome)
      let openOnes := u.web.segs.filter (fun g => g.fEnd.isNone)
      let bare := { u with
        chest.cells := u.chest.cells.map (fun c => { c with fill := none })
        web.segs := openOnes }
      let left := closed.foldl (exitSeg State.purgedReasons) (closed.foldl (fun t g => dropRef g.roll t) bare)
      let gone := { left with web.segs := left.web.segs.map (fun g => { g with fStart := left.head.f, oStart := left.head.o }) }
      (u.line.state ≠ .off → u.line.state ≠ .standby → exec (.purgeWeb e q) s = .next (settle (conclude x.no
        (refusal .wrongState (senseVals [natVal u.line.state.code])) u))) ∧
      (u.line.state = .off ∨ u.line.state = .standby →
        (u.head.flight ≠ none → exec (.purgeWeb e q) s = .next (settle (conclude x.no
          (refusal .wrongState (senseVals [natVal u.head.state.code])) u))) ∧
        (u.head.flight = none → exec (.purgeWeb e q) s = .next (settle (conclude x.no
          (doneParams [(0, [b8 closed.length, b8 (closed.countP (fun g => g.kind == .panel))])])
          (publish (if closed = [] then gone else reportPlaces gone))))))) ∧
  (∀ (p : Panel) (s : State),
    let y := s.purgedReasons p
    y.purged = true ∧ y.cut = p.cut ∧ y.unregistered = p.unregistered ∧
    (y.missedFolds = true ↔ s.k.missTolerance < p.missed) ∧ y.underset = false ∧ y.scorched = false ∧ y.verdict = .reject)

/-- R89: a segment asked for. A FLAT after a newest FLAT of the same roll is merged, the newest being open again; otherwise a list of 128
segments refuses it; otherwise it is appended as the newest with the next number, at the current F, starting in O where the segment before
it ends (log entry 15) or at the current O, and its roll's reference count rises. R90: the open segment is closed at the current F and O;
one that holds no web and is no PANEL is removed, its place reported free and its roll's count lowered (R106); a closed one stays. R42, R47:
a count that falls to 0 ends a waiting retirement of a SPENT roll that lies on no spindle; so does the test alone (R47). R89, R90: an append
over an open newest segment that holds no web removes it first, its place and its roll's count given back, and starts where the one before
it ends (the model's choice, log entries 15 and 44). -/
def Obligations.SegmentsOpenMergeAndClose : Prop :=
  (∀ (kind : SegKind) (roll : Nat) (panel : Option Nat) (s : State),
    let merges := kind = .flat ∧ ∃ g, s.web.segs.getLast? = some g ∧ g.kind = .flat ∧ g.roll = roll
    (∀ g, kind = .flat → s.web.segs.getLast? = some g → g.kind = .flat → g.roll = roll → openSeg kind roll panel s =
      some { s with web.segs := s.web.segs.dropLast ++ [{ g with fEnd := none, oEnd := none }] }) ∧
    (¬ merges → 128 ≤ s.web.segs.length → openSeg kind roll panel s = none) ∧
    (¬ merges → s.web.segs.length < 128 → openSeg kind roll panel s = some (appendSeg kind roll panel s))) ∧
  (∀ (kind : SegKind) (roll : Nat) (panel : Option Nat) (s : State),
    let new := fun (o : Nat) => (⟨s.web.nextSeg, kind, roll, panel, s.head.f, none, o, none⟩ : Segment)
    let with' := fun (segs : List Segment) (o : Nat) => { s with
      turret.rolls := s.turret.rolls.map (fun r => if r.tag = roll then { r with refs := r.refs + 1 } else r)
      web.segs := segs ++ [new o], web.nextSeg := (s.web.nextSeg + 1) % 65536 }
    (s.web.segs = [] → appendSeg kind roll panel s = with' [] s.head.o) ∧
    (∀ rest g f o, s.web.segs = rest ++ [g] → g.fEnd = some f → g.oEnd = some o →
      appendSeg kind roll panel s = with' s.web.segs o) ∧
    (∀ rest g, s.web.segs = rest ++ [g] → g.fEnd = none → g.oStart ≠ s.head.o ∨ g.kind = .panel →
      appendSeg kind roll panel s =
        with' (rest ++ [{ g with fEnd := some s.head.f, oEnd := some s.head.o }]) s.head.o)) ∧
  (∀ s : State,
    (s.web.segs = [] → closeNewest s = s) ∧
    (∀ rest g, s.web.segs = rest ++ [g] →
      (g.fEnd ≠ none → closeNewest s = s) ∧
      (g.fEnd = none → g.oStart ≠ s.head.o ∨ g.kind = .panel → closeNewest s =
        { s with web.segs := rest ++ [{ g with fEnd := some s.head.f, oEnd := some s.head.o }] }) ∧
      (g.fEnd = none → g.oStart = s.head.o → g.kind ≠ .panel →
        closeNewest s = reportPlaces (dropRef g.roll { s with web.segs := rest })))) ∧
  (∀ (tag : Nat) (s : State) (r : Roll), s.findRoll tag = some r →
    let t := { s with turret.rolls := s.turret.rolls.map (fun y => if y.tag = tag then { y with refs := y.refs - 1 } else y) }
    let ends := r.state = .spent ∧ r.refs ≤ 1 ∧ r.spindle = none ∧ r.watch ≠ none
    (¬ ends → dropRef tag s = t) ∧
    (ends → dropRef tag s = concludeWatch r.watch done
      { t with turret.rolls := t.turret.rolls.filter (fun y => y.tag != tag) })) ∧
  (∀ (tag : Nat) (s : State),
    (s.findRoll tag = none → endRollRetirement tag s = s) ∧
    (∀ r, s.findRoll tag = some r →
      let ends := r.state = .spent ∧ r.refs = 0 ∧ r.spindle = none ∧ r.watch ≠ none
      (¬ ends → endRollRetirement tag s = s) ∧
      (ends → endRollRetirement tag s = concludeWatch r.watch done
        { s with turret.rolls := s.turret.rolls.filter (fun y => y.tag != tag) }))) ∧
  (∀ (kind : SegKind) (roll : Nat) (panel : Option Nat) (s : State) (rest : List Segment) (g : Segment),
    s.web.segs = rest ++ [g] → g.fEnd = none → g.oStart = s.head.o → g.kind ≠ .panel →
    let t := reportPlaces (dropRef g.roll { s with
      turret.rolls := s.turret.rolls.map (fun r => if r.tag = roll then { r with refs := r.refs + 1 } else r)
      web.segs := rest })
    let o := match rest.getLast? with
      | some y => y.oEnd.getD s.head.o
      | none => s.head.o
    appendSeg kind roll panel s = { t with
      web.segs := rest ++ [⟨s.web.nextSeg, kind, roll, panel, s.head.f, none, o, none⟩]
      web.nextSeg := (s.web.nextSeg + 1) % 65536 })

/-- R95, R96: a leaving cell updates the least dose and the peak of the panel of a PANEL occupant, and removes, oldest first, the closed
segments that end at or below its upper bound. R97: the reasons of a judged panel, and GOOD exactly when there is none. R98: a judged panel
becomes EXITED with its exit time and verdict and no segment, joins the exit order, is counted by its order, and is then offered to the
waiting Awaits (AwaitPanelExitDeliversOrWaits); with none it stays. R42, R96: a removed PANEL segment has its panel judged and exit, and
every removed segment lowers its roll's count after it (the order of R96). R57: the exit counted: no record counts nothing; GOOD; REJECT, up
to 65,535, earning a remake unless it is CUT, cancelled or past the limit: a QUEUED or FORMING order keeps its place, one in AWAITING_EXIT
becomes QUEUED at the tail, its candidate reported. R58: an order that owes nothing and has no live panel leaves the queue, its notify watch
completing. -/
def Obligations.PanelsExitAndAreCounted : Prop :=
  (∀ (n dose peak : Nat) (s : State),
    (∀ g id, s.segNumbered n = some g → g.kind = .panel → g.panel = some id → creditPanel n dose peak s =
      s.mapPanel id (fun p => { p with
        minDose := some (match p.minDose with | some d => min d dose | none => dose), peak := max p.peak peak })) ∧
    (s.segNumbered n = none ∨ (∃ g, s.segNumbered n = some g ∧ g.kind ≠ .panel) → creditPanel n dose peak s = s)) ∧
  (∀ (bound : Nat) (s : State) (gone kept : List Segment), s.web.segs = gone ++ kept →
    (∀ g ∈ gone, ∃ o, g.oEnd = some o ∧ o ≤ bound) → (∀ g, kept.head? = some g → ∀ o, g.oEnd = some o → bound < o) →
      (gone = [] → removeBelow bound s = s) ∧
      (gone ≠ [] → removeBelow bound s =
        reportPlaces (gone.foldl (removedSeg State.reasonsOf) { s with web.segs := kept }))) ∧
  (∀ (p : Panel) (s : State) (r : Roll) (f : FibreClass),
    s.findRoll p.roll = some r → s.fibre r.cls = some f →
      let y := s.reasonsOf p
      (y.underset = true ↔ p.minDose = none ∨ ∃ d, p.minDose = some d ∧ d < f.dose) ∧
      (y.scorched = true ↔ f.tmax < p.peak) ∧ (y.missedFolds = true ↔ s.k.missTolerance < p.missed) ∧
      y.cut = p.cut ∧ y.unregistered = p.unregistered ∧ y.purged = false) ∧
  (∀ r : Reasons, r.verdict = .good ↔ r = ⟨false, false, false, false, false, false⟩) ∧
  (∀ (p : Panel) (r : Reasons) (s : State), s.web.awaits = [] →
    exitPanel p r s = orderExit p.order r.verdict r { s with
      web.panels := s.web.panels.map (fun y => if y.id = p.id then { y with
        state := .exited, exitTime := some s.line.clock, segment := none, verdict := some r.verdict, reasons := r
        purged := y.purged || r.purged } else y)
      web.exits := s.web.exits ++ [p.id] }) ∧
  (∀ (tag : Nat) (v : Verdict) (r : Reasons) (s : State),
    (s.findOrder tag = none → orderExit tag v r s = s) ∧
    (∀ o, s.findOrder tag = some o →
      let remake := v = .reject ∧ r.cut = false ∧ o.remakes < o.remakeLimit ∧ o.cancel = false
      let counted := if v = .good then { o with live := o.live - 1, good := o.good + 1 }
        else { o with live := o.live - 1, reject := min 65535 (o.reject + 1) }
      let remade := { counted with m := counted.m + 1, remakes := counted.remakes + 1 }
      let put := fun (z : Order) => s.mapOrder tag (fun _ => z)
      (¬ remake → counted.m = 0 → counted.live = 0 → orderExit tag v r s = concludeWatch o.watch
        { doneDetail (if o.cancel then 2 else 1) with params := [(0x10, counted.counts)] } (removeOrder counted (put counted))) ∧
      (¬ remake → ¬ (counted.m = 0 ∧ counted.live = 0) → orderExit tag v r s = put counted) ∧
      (remake → o.state ≠ .awaitingExit → orderExit tag v r s = put remade) ∧
      (remake → o.state = .awaitingExit → orderExit tag v r s = reportCandidate
        { s with orders := s.orders.filter (fun z => z.tag != tag) ++ [{ remade with state := .queued }] }))) ∧
  (∀ (p : Panel) (r : Reasons) (s : State),
    let u := orderExit p.order r.verdict r { s with
      web.panels := s.web.panels.map (fun y => if y.id = p.id then { y with
        state := .exited, exitTime := some s.line.clock, segment := none, verdict := some r.verdict, reasons := r
        purged := y.purged || r.purged } else y)
      web.exits := s.web.exits ++ [p.id] }
    exitPanel p r s = offerTo u.web.awaits p.id u) ∧
  (∀ (reasons : State → Panel → Reasons) (g : Segment) (s : State),
    (∀ id p, g.kind = .panel → g.panel = some id → s.findPanel id = some p →
      removedSeg reasons s g = dropRef g.roll (exitPanel p (reasons s p) s)) ∧
    (g.kind ≠ .panel → removedSeg reasons s g = dropRef g.roll s)) ∧
  (∀ (reasons : State → Panel → Reasons) (g : Segment) (s : State),
    (∀ id p, g.kind = .panel → g.panel = some id → s.findPanel id = some p →
      exitSeg reasons s g = exitPanel p (reasons s p) s) ∧
    (g.kind ≠ .panel → exitSeg reasons s g = s) ∧ removedSeg reasons s g = dropRef g.roll (exitSeg reasons s g))

/-! ### The steam chest -/

/-- R114, R115, R124: Set Zones with every flagged value in range edits the shared parameters and each zone: its set point and enabled mark,
a duty of 0 when it became disabled, its target and ready mark judged afresh, and a purge the new set point makes due; the test for RUN
follows. A flagged value out of range changes nothing. R124: Set Zones refuses exactly when a flagged value lies outside its range, as
BAD_PARAM. R113: a zone is ready with a target, no fault and |T - target| at most the band; the report says whether every enabled zone is.
R108: the target of a zone. R114: when a purge is due. R124: the edit of an enabled mark: keep, enable, disable or toggle. -/
def Obligations.SetZonesEditsEveryZone : Prop :=
  (∀ (e : Env) (q : Req) (a : ZonesArgs) (s : State) (x : Entry),
    dispatches e q (.setZones a) s x = true →
      let u := dispatched e q (.setZones a) s x
      let f := fun i => bitSet a.flags.toNat i
      let par : ZoneParams :=
        ⟨if f 4 then a.band.toNat else u.chest.par.band, if f 5 then a.drop.toNat else u.chest.par.drop,
          if f 6 then a.stepUp.toNat else u.chest.par.stepUp, if f 7 then a.stepDown.toNat else u.chest.par.stepDown,
          if f 8 then a.leapAt.toNat else u.chest.par.leapAt, if f 9 then a.leapDown.toNat else u.chest.par.leapDown⟩
      let sp := fun i => match i with | 0 => a.sp1 | 1 => a.sp2 | 2 => a.sp3 | _ => a.sp4
      let edit := fun (i : Nat) (z : Zone) =>
        let point : Nat := if f i then (sp i).toNat else z.setPoint
        let en := editEnable a.edits.toNat i z.enabled
        let y : Zone := Zone.retarget
          { z with setPoint := point, enabled := en, duty := if z.enabled && !en then 0 else z.duty } par u.line.state
        if point ≠ z.setPoint ∧ y.purgeDue u.line.clock = true then { y with purging := true, timer := some u.line.clock } else y
      let v := testRun (reportReady { u with chest.par := par, chest.zones := u.chest.zones.mapIdx edit })
      (zonesFail a.flags.toNat 0 (zoneValues a) = none →
        exec (.setZones e q a) s = .next (settle (conclude x.no (doneParams [(0x18, [b8 v.enabledMarks])]) v))) ∧
      (∀ r, zonesFail a.flags.toNat 0 (zoneValues a) = some r →
        exec (.setZones e q a) s = .next (settle (conclude x.no r u)))) ∧
  (∀ a : ZonesArgs,
    let f := fun i => bitSet a.flags.toNat i = true
    let sp := fun (v : U16) => 800 ≤ v.toNat ∧ v.toNat ≤ 2200
    (zonesFail a.flags.toNat 0 (zoneValues a) = none ↔
      (f 0 → sp a.sp1) ∧ (f 1 → sp a.sp2) ∧ (f 2 → sp a.sp3) ∧ (f 3 → sp a.sp4) ∧
      (f 4 → 5 ≤ a.band.toNat ∧ a.band.toNat ≤ 200) ∧ (f 5 → a.drop.toNat ≤ 800) ∧
      (f 6 → 1 ≤ a.stepUp.toNat ∧ a.stepUp.toNat ≤ 200) ∧ (f 7 → 1 ≤ a.stepDown.toNat ∧ a.stepDown.toNat ≤ 200) ∧
      (f 8 → 50 ≤ a.leapAt.toNat ∧ a.leapAt.toNat ≤ 500) ∧ (f 9 → 1 ≤ a.leapDown.toNat ∧ a.leapDown.toNat ≤ 500)) ∧
    ∀ r, zonesFail a.flags.toNat 0 (zoneValues a) = some r → r.code = .badParam) ∧
  (∀ (z : Zone) (par : ZoneParams) (st : LineState) (now : Clock),
    let near := fun (g : Nat) => z.reading ≤ g + par.band ∧ g ≤ z.reading + par.band
    (z.target = none ∨ z.faulted = true → z.judge par = { z with ready := false }) ∧
    (∀ g, z.target = some g → z.faulted = false → near g → z.judge par = { z with ready := true }) ∧
    (∀ g, z.target = some g → ¬ near g → z.judge par = { z with ready := false }) ∧
    (z.retarget par st = Zone.judge { z with target := match st with
      | .off => none
      | .starting => some z.setPoint
      | .run => some z.setPoint
      | .stopping => some z.setPoint
      | _ => some (z.setPoint - par.drop) } par) ∧
    (z.timer = none → z.purgeDue now = false) ∧
    (∀ c, z.timer = some c →
      (z.purgeDue now = true ↔ (if 1500 ≤ z.setPoint then 30000 else 60000) ≤ (now - c).toNat))) ∧
  (∀ s : State,
    ((∀ z ∈ s.chest.zones, z.enabled = true → z.ready = true) → reportReady s = { s with line.zonesReady := true }) ∧
    (∀ z ∈ s.chest.zones, z.enabled = true → z.ready = false → reportReady s = { s with line.zonesReady := false })) ∧
  (∀ (e1 e2 e3 e4 : Nat) (old : Bool), e1 < 4 → e2 < 4 → e3 < 4 → e4 < 4 →
    let edits := e1 + 4 * e2 + 16 * e3 + 64 * e4
    let mark := fun (e : Nat) => match e with
      | 0 => old
      | 1 => true
      | 2 => false
      | _ => !old
    editEnable edits 0 old = mark e1 ∧ editEnable edits 1 old = mark e2 ∧ editEnable edits 2 old = mark e3 ∧
    editEnable edits 3 old = mark e4)

/-- R66, R117: an output report raises O, and then a crossing is made for every cell boundary that O has reached, one after another. R117,
R118, R120: one crossing: cell 63 leaves the chest and is reported to the web map, the others move one place, the new cell 0 has the lower
bound E and the occupants of the lookups at E and E + 499 (R91) in the map as it then stands, with the class of the first occupant's roll,
dose and peak 0, or is EMPTY where both find none; E rises by 500. R123: a crossing that changes the set of classes present recomputes the
ceiling once, at its end (the model's choice of the place, log entry 54). R91: the lookup at x gives the segment with O start <= x < O end,
or the open one when x is not before its O start, and none where there is no such segment. A roll that is absent, which no run reaches,
counts as class 0 (log entry 28). -/
def Obligations.CrossingsFillTheCells : Prop :=
  (∀ (len n : Nat) (s : State),
    let o := s.head.o + len
    let next := s.k.dEntry + s.chest.entry
    o < next + 500 * n → (n = 0 ∨ next + 500 * (n - 1) ≤ o) →
      reportOutput len s = Nat.iterate crossing n { s with head.o := o }) ∧
  (∀ (s : State) (front : List Cell) (c : Cell), s.chest.cells = front ++ [c] →
    let b := s.chest.entry
    let u := cellExit c { s with chest.cells := front ++ [⟨none, none⟩] }
    let cls := fun (g : Segment) => ((u.findRoll g.roll).map Roll.cls).getD 0
    let t := crossing s
    (∃ fill, t.chest.cells = ⟨some b, fill⟩ :: front ∧
      (∀ g h, u.segAt b = some g → u.segAt (b + 499) = some h → fill = some ⟨g.number, h.number, cls g, 0, 0⟩) ∧
      (∀ h, u.segAt b = none → u.segAt (b + 499) = some h → fill = some ⟨h.number, h.number, cls h, 0, 0⟩) ∧
      (u.segAt b = none → u.segAt (b + 499) = none → fill = none) ∧
      let w := { u with chest.cells := ⟨some b, fill⟩ :: front, chest.entry := b + 500 }
      (w.classesPresent = s.classesPresent → t = w) ∧ (w.classesPresent ≠ s.classesPresent → t = publish w)) ∧
    t.chest.entry = b + 500) ∧
  (∀ (c : Cell) (s : State),
    (c = ⟨none, none⟩ → cellExit c s = s) ∧
    (∀ b, c = ⟨some b, none⟩ → cellExit c s = removeBelow (b + 500) s) ∧
    (∀ b f, c = ⟨some b, some f⟩ →
      (f.first = f.second → cellExit c s = removeBelow (b + 500) (creditPanel f.first f.dose f.peak s)) ∧
      (f.first ≠ f.second → cellExit c s = removeBelow (b + 500)
        (creditPanel f.second f.dose f.peak (creditPanel f.first f.dose f.peak s))))) ∧
  (∀ (s : State) (x : Nat),
    let lies := fun (g : Segment) => g.oStart ≤ x ∧ ∀ e, g.oEnd = some e → x < e
    (∀ older g newer, s.web.segs = older ++ g :: newer → lies g → (∀ h ∈ older, ¬ lies h) → s.segAt x = some g) ∧
    ((∀ g ∈ s.web.segs, ¬ lies g) → s.segAt x = none))

/-- R122: the classes present are those of the filled cells, of the RUNNING roll, and of the roll on a READY other spindle while a splice is
wanted or pressed. The ceiling is the least of floor(12 sum / (5 D)) over them, the sum over the zones not faulted of the length in
millimetres times the excess over theta, clamped to 240, and the limiting class the lowest that gives it; with no class present or the
constants unset it is 240 with none. R123, R138: a publication takes the ceiling and its class, recomputes the effective speed and drives
the reference. R132: then HEAT is raised in RUN below the range minimum and cleared at the minimum plus 2; R129: last a STARTING line tests
for RUN. An EMPTY class, which no run reaches here, counts as threshold 0 and dose 0 (log entry 28). -/
def Obligations.CeilingAndHeat : Prop :=
  (∀ (s : State) (c : Nat), c ∈ s.classesPresent ↔ 1 ≤ c ∧ c ≤ 8 ∧
    ((∃ y ∈ s.chest.cells, ∃ f, y.fill = some f ∧ f.cls = c) ∨ (∃ r, s.runningRoll = some r ∧ r.cls = c) ∨
      (s.wanted = true ∨ s.turret.seq = .pressing) ∧ ∃ i j tag r, (i = .a ∧ j = .b ∨ i = .b ∧ j = .a) ∧
        s.feeding = some i ∧ (s.spindle j).state = .ready ∧ (s.spindle j).tag = some tag ∧ s.findRoll tag = some r ∧ r.cls = c)) ∧
  (∀ (s : State) (k : Consts) (z1 z2 z3 z4 : Zone), s.line.consts = some k → s.chest.zones = [z1, z2, z3, z4] →
    let theta := fun c => ((s.fibre c).map FibreClass.theta).getD 0
    let dose := fun c => ((s.fibre c).map FibreClass.dose).getD 0
    let heat := fun (z : Zone) (cells c : Nat) => if z.faulted then 0 else cells * 50 * (z.reading - theta c)
    let ceiling := fun c =>
      12 * (heat z1 k.zone1 c + heat z2 k.zone2 c + heat z3 k.zone3 c + heat z4 k.zone4 c) / (5 * dose c)
    (s.classesPresent = [] → s.ceilingNow = (240, none)) ∧
    (∀ c ∈ s.classesPresent,
      (∀ d ∈ s.classesPresent, ceiling c ≤ ceiling d ∧ (ceiling d = ceiling c → c ≤ d)) →
        s.ceilingNow = (min (ceiling c) 240, some c))) ∧
  (∀ s : State, s.line.consts = none → s.ceilingNow = (240, none)) ∧
  (∀ s : State,
    let c := s.ceilingNow.1
    let lo := s.line.range.min
    let eff := min (min s.line.commanded s.line.range.max) (min c s.line.limit)
    let t := { s with
      line.ceiling := c, line.limiting := s.ceilingNow.2, line.effective := eff
      line.speedRef := match s.line.state with
        | .run => eff
        | .stopping => eff
        | .thread => lo
        | _ => 0 }
    (s.line.state = .run → c < lo → publish s = testRun (raiseReason .heat t)) ∧
    (s.line.state ≠ .run → c < lo → publish s = testRun t) ∧
    (lo ≤ c → c < lo + 2 → publish s = testRun t) ∧
    (lo + 2 ≤ c → publish s = testRun (clearReason .heat t)))

/-- R109: the classification of a sample, and R110: which sample is an over-temperature sample. R116, R119: a credit adds to the dose of
every filled cell of the zone the excess of the reading over the class's threshold, up to 16,777,215, and raises its peak; every other cell
stays. R109, R110, R111, R113, R119: a sample worked: classified, its halt cause raised with it outside OFF, before the credit and the
regulation (the model's place for it, which R111 does not give: log entry 24), the zone's filled cells credited unless it is faulted, the
duty regulated, the ready mark judged and reported, and the ceiling published. R111, R115: an over-temperature sample, and a zone that is
disabled, faulted, purging or without a target, leave the duty as it is. -/
def Obligations.ZoneSamplesWorked : Prop :=
  (∀ (z : Zone) (t : BitVec 12),
    (t.toNat ≤ 2500 → z.classify (.reading t) =
      ({ z with reading := t.toNat, lastGood := t.toNat, faultRun := 0, faulted := false }, false)) ∧
    (2500 < t.toNat → z.classify (.reading t) =
      ({ z with reading := 2500, lastGood := 2500, faultRun := 0, faulted := false, duty := 0 }, true)) ∧
    (z.faultRun ≤ 1 → z.classify .fault = ({ z with reading := z.lastGood, faultRun := z.faultRun + 1 }, false)) ∧
    (2 ≤ z.faultRun → z.classify .fault = ({ z with faultRun := 3, faulted := true, duty := 0, ready := false }, false))) ∧
  (∀ (z : ZoneId) (s : State) (i : Nat) (c : Cell), s.chest.cells[i]? = some c →
    let t := (s.zone z).reading
    let lo := match z with
      | .z1 => 0
      | .z2 => s.k.zone1
      | .z3 => s.k.zone1 + s.k.zone2
      | .z4 => s.k.zone1 + s.k.zone2 + s.k.zone3
    let len := match z with
      | .z1 => s.k.zone1
      | .z2 => s.k.zone2
      | .z3 => s.k.zone3
      | .z4 => s.k.zone4
    (lo ≤ i → i < lo + len → ∀ f g, c.fill = some f → s.fibre f.cls = some g → (creditZone z s).chest.cells[i]? = some { c with
      fill := some { f with dose := min 16777215 (f.dose + (t - g.theta)), peak := max f.peak t } }) ∧
    ((i < lo ∨ lo + len ≤ i ∨ c.fill = none) → (creditZone z s).chest.cells[i]? = some c)) ∧
  (∀ (e : Env) (z : ZoneId) (x : Sample) (s : State),
    let u := arrive e s
    let c := (u.zone z).classify x
    let t := u.mapZone z (fun y => (y.classify x).1)
    let rest := fun (w : State) =>
      let v := if (w.zone z).faulted then w else creditZone z w
      publish (testRun (reportReady (v.mapZone z (fun y => (y.regulate v.chest.par c.2).judge v.chest.par))))
    (u.line.state = .off ∨ c.2 = false ∧ c.1.faulted = false → exec (.zoneSample e z x) s = .next (settle (rest t))) ∧
    (u.line.state ≠ .off → c.2 = true → exec (.zoneSample e z x) s = .next (settle (rest (raiseHalt .overtemp t)))) ∧
    (u.line.state ≠ .off → c.2 = false → c.1.faulted = true →
      exec (.zoneSample e z x) s = .next (settle (rest (raiseHalt .sensor t))))) ∧
  (∀ (z : Zone) (par : ZoneParams) (hot : Bool),
    z.target = none ∨ z.enabled = false ∨ z.faulted = true ∨ z.purging = true ∨ hot = true → z.regulate par hot = z)

/-- R112, whole: the four rows of the law with the clamp to 0..1000, and that a zone that regulates drives the clamped value. -/
def Obligations.ControlLawFollowsR112 : Prop :=
  ∀ (par : ZoneParams) (z : Zone) (target : Nat), z.duty ≤ 1000 →
    let t : Int := z.reading
    let d : Int := z.duty
    let law : Int :=
      if t < (target : Int) - par.band then d + par.stepUp
      else if (target : Int) + par.leapAt < t then d - par.leapDown
      else if (target : Int) + par.band < t then d - par.stepDown
      else d
    ((controlLaw par target z.reading z.duty : Nat) : Int) = max 0 (min 1000 law) ∧
    (z.target = some target → z.enabled = true → z.faulted = false → z.purging = false →
      z.regulate par false = { z with duty := controlLaw par target z.reading z.duty })

/-! ### The line -/

/-- R63, R108, R126, R131, R135, R138, R140: a change of line state: the state and its hold reasons, the deadline, the speed reference it
drives, an unwind that stands where it may not run, the head state, and every zone's target. R64, R77, R80: what it does to the head's runs:
a GAP, DRAIN, GUARD or SPLICE run stays, in RUN, STARTING, HOLD, STANDBY and OFF, and every other is dropped; STOPPING keeps a DRAIN and the
runs of a passage, withdraws the chunk of a run that gives way, and counts a spent drain as already run; THREAD begins its run, in the place
of the run in progress (the model's choice for a GAP or DRAIN, log entry 51) or behind a passage; HALT keeps the runs for R81. Outside RUN
and STOPPING a wanted draw is withdrawn and starvation ends (R142). In RUN a head without a panel returns to SEEKING, its count of marks and
its expected start forgotten. Everything else of the head stays. R108, R113, R114: every zone's target follows the state, and its ready mark
is judged and reported; on entering OFF the duties are 0, the drains shut and the purge timers stand, on leaving it the timers start. R140:
the unwind is judged for the new state. R151: the trigger test is made last, on the state with the turret as before. In RUN and STOPPING
starvation and its deadline stay, but where STOPPING withdraws the chunk; nothing else of the line changes, and nothing outside the line,
the head, the chest and the turret. -/
def Obligations.ChangeOfLineState : Prop :=
  (∀ (st : LineState) (s : State),
    let t := lineTo st s
    t.line.state = st ∧
    t.line.holds = (match st with
      | .standby => Holds.empty
      | .off => Holds.empty
      | .halt => Holds.empty
      | .stopping => { s.line.holds with operator := false, heat := false, noOrder := false }
      | _ => s.line.holds) ∧
    t.line.deadline = (if st = .starting ∨ st = .hold then s.line.deadline else none) ∧
    t.line.speedRef = (match st with
      | .run => s.line.effective
      | .stopping => s.line.effective
      | .thread => s.line.range.min
      | _ => 0) ∧
    (st = .off ∨ st = .standby ∨ st = .halt → t.line.unwind = false) ∧
    t.head.state = (match st with
      | .run => if s.head.panel.isSome then .forming else .flat
      | .stopping => if s.head.panel.isSome then .forming else .flat
      | .thread => if s.head.align.isSome then .aligning else .flat
      | _ => .retracted) ∧
    t.chest.zones.map Zone.target = s.chest.zones.map (fun z => match st with
      | .off => none
      | .starting => some z.setPoint
      | .run => some z.setPoint
      | .stopping => some z.setPoint
      | _ => some (z.setPoint - s.chest.par.drop))) ∧
  (∀ (st : LineState) (s : State),
    let h := s.head
    let t := lineTo st s
    let kept := fun (ps : List Purpose) (r : Option Run) => r.filter (fun y => y.purpose ∈ ps)
    let whole := fun (p : Purpose) (n : Option Nat) => (⟨p, n, false, none⟩ : Run)
    (st = .run → t.head.run = kept [.gap, .drain, .guard, .splice] h.run ∧ t.head.suspended = kept [.gap, .drain] h.suspended ∧
      t.head.wanted = h.wanted ∧ t.head.counting = (h.counting && h.panel.isSome) ∧
      t.head.expected = (if h.panel.isSome then h.expected else none)) ∧
    (st = .stopping →
      let stays := kept [.drain, .guard, .splice] h.run
      t.head.run = (if h.drainSpent = true ∧ h.passage = .none then some (whole .drain (some 0)) else stays) ∧
      t.head.suspended =
        (if h.drainSpent = true ∧ h.passage ≠ .none then some (whole .drain (some 0)) else kept [.drain] h.suspended) ∧
      t.head.wanted = (if stays = none then h.wanted.filter (fun u => u.fold) else h.wanted) ∧ t.head.drainSpent = false) ∧
    (st = .thread →
      (h.passage = .none → t.head.run = some (whole .thread none) ∧ t.head.suspended = h.suspended) ∧
      (h.passage ≠ .none → t.head.suspended = some (whole .thread none) ∧ t.head.run = h.run)) ∧
    (st = .halt → t.head.run = h.run ∧ t.head.suspended = h.suspended) ∧
    (st = .off ∨ st = .standby ∨ st = .starting ∨ st = .hold →
      t.head.run = kept [.gap, .drain, .guard, .splice] h.run ∧ t.head.suspended = kept [.gap, .drain] h.suspended) ∧
    (st = .run ∨ st = .stopping ∨ st = .thread → t.head.again = true) ∧
    (st ≠ .run → st ≠ .stopping → t.head.wanted = none ∧ t.line.starved = false ∧ t.line.stall = none) ∧
    (st ≠ .run → t.head.counting = h.counting ∧ t.head.expected = h.expected) ∧
    (st ≠ .stopping → t.head.drainSpent = h.drainSpent) ∧
    { t.head with
      state := h.state, run := h.run, suspended := h.suspended, wanted := h.wanted, counting := h.counting
      expected := h.expected, drainSpent := h.drainSpent, again := h.again } = h) ∧
  (∀ (st : LineState) (s : State),
    let t := lineTo st s
    let near := fun (z : Zone) (g : Nat) => decide (z.reading ≤ g + s.chest.par.band ∧ g ≤ z.reading + s.chest.par.band)
    let zone := fun (z : Zone) =>
      let target := match st with
        | .off => none
        | .starting => some z.setPoint
        | .run => some z.setPoint
        | .stopping => some z.setPoint
        | _ => some (z.setPoint - s.chest.par.drop)
      let y := { z with target := target, ready := !z.faulted && target.any (near z) }
      if st = .off then { y with duty := 0, purging := false, timer := none }
      else if s.line.state = .off then { y with timer := some s.line.clock }
      else y
    t.chest = { s.chest with zones := s.chest.zones.map zone } ∧
    (t.line.zonesReady = true ↔ ∀ z ∈ t.chest.zones, z.enabled = true → z.ready = true)) ∧
  (∀ (st : LineState) (s : State),
    let t := lineTo st s
    let moving := st = .thread ∨ st = .starting ∨ st = .run ∨ st = .hold ∨ st = .stopping
    let runs := fun (seq : SpliceState) =>
      decide moving && !s.line.latchShut && s.runningRoll.isSome && decide (seq ≠ .pressing)
    let gives := st = .stopping ∧ s.head.wanted.map DrawUnit.fold = some false ∧
      s.head.run.filter (fun y => y.purpose ∈ [.drain, .guard, .splice]) = none
    let goesOn := (st = .run ∨ st = .stopping) ∧ ¬ gives
    let stall := if goesOn then s.line.stall else none
    t = triggerTest { t with turret := s.turret, line.unwind := runs s.turret.seq, line.stall := stall } ∧
    t.line.unwind = runs t.turret.seq ∧
    t.line.starved = (if goesOn then s.line.starved else false) ∧
    { t with
      head := s.head, chest := s.chest, turret := s.turret, line.state := s.line.state, line.holds := s.line.holds
      line.deadline := s.line.deadline, line.speedRef := s.line.speedRef, line.unwind := s.line.unwind
      line.zonesReady := s.line.zonesReady, line.starved := s.line.starved, line.stall := s.line.stall } = s)

/-- R127: Energise in OFF with the constants set and both inputs inactive enters STANDBY; otherwise it is refused and changes nothing.
De-energise in STANDBY enters OFF and is refused elsewhere. R128, R129: Thread in STANDBY enters THREAD. Start in STANDBY with no Start
held, the alignment VALID and a roll RUNNING arms the deadline, is held RUNNING and enters STARTING, which makes the test for RUN at once.
Both are refused elsewhere; the sense record of a Start refused for want of a roll says so by a 1 after the line state (log entry 10). R129:
the test for RUN: a STARTING line with the alignment VALID, a roll RUNNING, the enabled zones ready and the ceiling at the range minimum or
above enters RUN, and a start watch completes as DONE; otherwise nothing happens. Held means the watch: a Start that has completed and
awaits its return slot refuses no other (the model's choice, log entry 65). A Start with the alignment INVALID and no roll RUNNING is
NOT_ALIGNED (the model's choice, log entry 70); an Energise outside OFF gives the line state alone, also while an input is active or the
constants are unset (the model's choice, log entry 71). -/
def Obligations.EnergiseThreadAndStart : Prop :=
  (∀ (e : Env) (q : Req) (s : State) (x : Entry),
    (dispatches e q .energise s x = true →
      let u := dispatched e q .energise s x
      let ready := u.line.consts ≠ none ∧ u.line.estop = false ∧ u.line.drive = false
      (u.line.state = .off → ready → exec (.energise e q) s = .next (settle (conclude x.no done (lineTo .standby u)))) ∧
      (u.line.state = .off → ¬ ready → exec (.energise e q) s = .next (settle (conclude x.no (refusal .wrongState (senseVals
        [natVal (flagNat u.line.consts.isNone), natVal (flagNat u.line.estop), natVal (flagNat u.line.drive)])) u))) ∧
      (u.line.state ≠ .off → exec (.energise e q) s = .next (settle (conclude x.no
        (refusal .wrongState (senseVals [natVal u.line.state.code])) u)))) ∧
    (dispatches e q .deEnergise s x = true →
      let u := dispatched e q .deEnergise s x
      (u.line.state = .standby → exec (.deEnergise e q) s = .next (settle (conclude x.no done (lineTo .off u)))) ∧
      (u.line.state ≠ .standby → exec (.deEnergise e q) s = .next (settle (conclude x.no
        (refusal .wrongState (senseVals [natVal u.line.state.code])) u))))) ∧
  (∀ (e : Env) (q : Req) (s : State) (x : Entry),
    (dispatches e q .thread s x = true →
      let u := dispatched e q .thread s x
      (u.line.state = .standby → exec (.thread e q) s = .next (settle (conclude x.no done (lineTo .thread u)))) ∧
      (u.line.state ≠ .standby → exec (.thread e q) s = .next (settle (conclude x.no
        (refusal .wrongState (senseVals [natVal u.line.state.code])) u)))) ∧
    (dispatches e q .start s x = true →
      let u := dispatched e q .start s x
      let startable := u.line.state = .standby ∧ u.line.startWatch = none
      (¬ startable → exec (.start e q) s = .next (settle (conclude x.no
        (refusal .wrongState (senseVals [natVal u.line.state.code])) u))) ∧
      (startable → u.head.aligned = false → exec (.start e q) s = .next (settle (conclude x.no
        (refusal .notAligned (senseVals [natVal u.head.offset])) u))) ∧
      (startable → u.head.aligned = true → u.runningRoll = none → exec (.start e q) s = .next (settle (conclude x.no
        (refusal .wrongState (senseVals [natVal u.line.state.code, 1])) u))) ∧
      (startable → u.head.aligned = true → u.runningRoll ≠ none → exec (.start e q) s = .next (settle (testRun
        (lineTo .starting (holdRunning x.no { u with line.startWatch := some x.no, line.deadline := some 0 }))))))) ∧
  (∀ s : State,
    let may := s.line.state = .starting ∧ s.head.aligned = true ∧ s.runningRoll ≠ none ∧ s.line.zonesReady = true ∧
      s.line.range.min ≤ s.line.ceiling
    (¬ may → testRun s = s) ∧
    (may → ∀ t, t = lineTo .run s → testRun s = concludeWatch t.line.startWatch done { t with line.startWatch := none }))

/-- R134: Stop by the line state. From RUN, HOLD and STARTING the line enters STOPPING, a held Start ends as ABORTED, and the request is
held as a stop watch; a FORMING panel is cut with the cut flag, before the change of state (the model's order, log entry 38), and the
Start completes before the Stop is held (log entry 37). Where a post of the cut or of the Start meets a ring fault, the Stop is dropped with
every held request and is no stop watch, and the line stops all the same (R172, R175; DEDUCED, log entry 72). In STOPPING it is held too; in
THREAD the line enters STANDBY, an Align Blade ending as R86 lays down; in OFF, STANDBY and HALT it is refused. -/
def Obligations.StopByLineState : Prop :=
  ∀ (e : Env) (q : Req) (cut : Bool) (s : State) (x : Entry),
    dispatches e q (.stop cut) s x = true →
      let u := dispatched e q (.stop cut) s x
      let watch := fun (t : State) =>
        if t.holdsEntry x.no = true then holdRunning x.no { t with line.stopWatches := t.line.stopWatches ++ [x.no] } else t
      let c := if cut then cutByRequest u else u
      let v := lineTo .stopping c
      (u.line.state = .run ∨ u.line.state = .hold ∨ u.line.state = .starting → exec (.stop e q cut) s = .next (settle (watch
        (concludeWatch v.line.startWatch (refusal .aborted (senseVals [3])) { v with line.startWatch := none })))) ∧
      (u.line.state = .stopping → exec (.stop e q cut) s = .next (settle (watch c))) ∧
      (u.line.state = .thread → u.head.align = none →
        exec (.stop e q cut) s = .next (settle (conclude x.no done (lineTo .standby u)))) ∧
      (∀ a, u.line.state = .thread → u.head.align = some a → exec (.stop e q cut) s = .next (settle (conclude x.no done
        (lineTo .standby (finishAlign a (haltedAnswer u.line.cause) { u with head.aligned := false }))))) ∧
      (u.line.state = .off ∨ u.line.state = .standby ∨ u.line.state = .halt →
        exec (.stop e q cut) s = .next (settle (conclude x.no (refusal .wrongState (senseVals [natVal u.line.state.code])) u)))

/-- R133: Hold raises OPERATOR in STARTING, RUN and HOLD; Resume takes OPERATOR out of the set, and a set left empty in HOLD sends the line
to STARTING. Elsewhere both are refused. R131: a hold reason raised in STARTING or RUN puts the line in HOLD with it; in THREAD and STOPPING
it only joins the set, and in OFF, STANDBY and HALT nothing happens. A reason cleared leaves the set, and a set left empty in HOLD sends the
line to STARTING with the test for RUN; one that does not stand changes nothing. R70, R79, R106: what clears a reason: a freed panel record
clears PANELS_FULL, free segment places MAP_FULL once there are as many as it was raised for, and a binding candidate NO_ORDER; each calls
on the head to go on (R69). That Resume's DONE is posted before the line moves is the model's choice (log entry 37). -/
def Obligations.HoldAndResume : Prop :=
  (∀ (e : Env) (q : Req) (s : State) (x : Entry),
    (dispatches e q .hold s x = true →
      let u := dispatched e q .hold s x
      let t := { u with line.holds := { u.line.holds with operator := true } }
      (u.line.state = .starting ∨ u.line.state = .run →
        exec (.hold e q) s = .next (settle (conclude x.no done (lineTo .hold t)))) ∧
      (u.line.state = .hold → exec (.hold e q) s = .next (settle (conclude x.no done t))) ∧
      (u.line.state ≠ .starting → u.line.state ≠ .run → u.line.state ≠ .hold →
        exec (.hold e q) s = .next (settle (conclude x.no (refusal .wrongState (senseVals [natVal u.line.state.code])) u)))) ∧
    (dispatches e q .resume s x = true →
      let u := dispatched e q .resume s x
      let v := conclude x.no done u
      let t := { v with line.holds := { u.line.holds with operator := false } }
      (u.line.holds.operator = false → exec (.resume e q) s = .next (settle (conclude x.no
        (refusal .wrongState (senseVals [natVal u.line.state.code, natVal u.line.holds.bits])) u))) ∧
      (u.line.holds.operator = true → u.line.state = .hold → u.line.holds = { Holds.empty with operator := true } →
        exec (.resume e q) s = .next (settle (testRun (lineTo .starting t)))) ∧
      (u.line.holds.operator = true → ¬ (u.line.state = .hold ∧ u.line.holds = { Holds.empty with operator := true }) →
        exec (.resume e q) s = .next (settle t)))) ∧
  (∀ (r : HoldReason) (s : State),
    let t := { s with line.holds := s.line.holds.put true r }
    (s.line.state = .starting ∨ s.line.state = .run →
      raiseReason r s = lineTo .hold t ∧ (raiseReason r s).line.state = .hold ∧ (raiseReason r s).line.holds.has r = true) ∧
    (s.line.state = .hold ∨ s.line.state = .thread ∨ s.line.state = .stopping → raiseReason r s = t) ∧
    (s.line.state = .off ∨ s.line.state = .standby ∨ s.line.state = .halt → raiseReason r s = s)) ∧
  (∀ (r : HoldReason) (s : State),
    let left := s.line.holds.put false r
    (s.line.holds.has r = false → clearReason r s = s) ∧
    (s.line.holds.has r = true → s.line.state = .hold → left = Holds.empty →
      clearReason r s = testRun (lineTo .starting { s with line.holds := left })) ∧
    (s.line.holds.has r = true → ¬ (s.line.state = .hold ∧ left = Holds.empty) →
      clearReason r s = { s with line.holds := left })) ∧
  (∀ s : State,
    let w := { s with head.again := true }
    let met := s.line.holds.mapFull = true ∧ s.head.mapNeed ≤ 128 - s.web.segs.length
    reportRecord s = clearReason .panelsFull w ∧
    (met → reportPlaces s = clearReason .mapFull { w with head.mapNeed := 0 }) ∧ (¬ met → reportPlaces s = w) ∧
    (s.candidate ≠ none → reportCandidate s = clearReason .noOrder w) ∧ (s.candidate = none → reportCandidate s = s))

/-- R136: Clear Halt in HALT with both inputs inactive: cause none, set empty, STANDBY, DONE with the cause and the set that stood; refused
in any other state and while an input is active. R135: a halt cause raised. In OFF it is discarded; in HALT it joins the set; in any other
state it becomes the cause, joins the set and puts the line in HALT, with the speed reference 0, the unwind stopped, no hold reason, no
watch of a Start or a Stop, and the head retracted. The event whole: the line in HALT, a held Start, then the held Stops ending as
LINE_HALTED (R130, R134), the head, and last the turret, where outside PRESSING the request wish clears and a Splice Now ends as LINE_HALTED
(R157), and in PRESSING the press closes without a splice and SPLICE_FAULT, and TAIL_OUT when the tail ran out, join the set (R156). R81,
R86: the head: a unit in flight is finished with its output, the wanted draw and every run but GUARD and SPLICE are dropped, a panel is cut
with its gap owed and the committed end at F, the alignment is INVALID with its offset kept, and trials end as LINE_HALTED; F, the passage
and a pending arrival stay. R135: the emergency-stop and drive-fault inputs raise their cause at their change to active and nothing at any
other. The model's choices: the order of a halt's parts, first the held requests, then the head, then the turret (log entry 12), the order
in which the Start and the Stops end (log entry 37), and that the late reports still owed are dropped (log entry 46). -/
def Obligations.HaltsRaisedAndCleared : Prop :=
  (∀ (e : Env) (q : Req) (s : State) (x : Entry),
    dispatches e q .clearHalt s x = true →
      let u := dispatched e q .clearHalt s x
      (u.line.state ≠ .halt → exec (.clearHalt e q) s = .next (settle (conclude x.no
        (refusal .wrongState (senseVals [natVal u.line.state.code])) u))) ∧
      (u.line.state = .halt → u.line.estop = true ∨ u.line.drive = true → exec (.clearHalt e q) s = .next (settle
        (conclude x.no (refusal .wrongState (senseVals [natVal (flagNat u.line.estop), natVal (flagNat u.line.drive)])) u))) ∧
      (u.line.state = .halt → u.line.estop = false → u.line.drive = false → exec (.clearHalt e q) s = .next (settle
        (conclude x.no (doneParams [(0, [b8 (causeCode u.line.cause)]), (2, le 2 u.line.halts.bits)])
          (lineTo .standby { u with line.cause := none, line.halts := Halts.empty }))))) ∧
  (∀ (c : HaltCause) (s : State), Inv s →
    (s.line.state = .off → raiseHalt c s = s) ∧
    (s.line.state = .halt → raiseHalt c s = { s with line.halts := s.line.halts.add c }) ∧
    (s.line.state ≠ .off → s.line.state ≠ .halt → s.turret.seq ≠ .pressing →
      let t := raiseHalt c s
      t.line.state = .halt ∧ t.line.cause = some c ∧ t.line.speedRef = 0 ∧ t.line.unwind = false ∧
      t.line.holds = Holds.empty ∧ t.line.halts = s.line.halts.add c ∧ t.line.startWatch = none ∧ t.line.stopWatches = [] ∧
      t.head.state = .retracted)) ∧
  (∀ (e : Env) (level : Bool) (s : State),
    let u := arrive e s
    let stop := { u with line.estop := level }
    let drive := { u with line.drive := level }
    (level = true ∧ u.line.estop = false → exec (.emergencyStopInput e level) s = .next (settle (raiseHalt .estop stop))) ∧
    (¬ (level = true ∧ u.line.estop = false) → exec (.emergencyStopInput e level) s = .next (settle stop)) ∧
    (level = true ∧ u.line.drive = false → exec (.driveFaultInput e level) s = .next (settle (raiseHalt .driveFault drive))) ∧
    (¬ (level = true ∧ u.line.drive = false) → exec (.driveFaultInput e level) s = .next (settle drive))) ∧
  (∀ (c : HaltCause) (s : State), s.line.state ≠ .off → s.line.state ≠ .halt →
    let a := haltedAnswer (some c)
    let l := lineTo .halt { s with line.cause := some c, line.halts := s.line.halts.add c }
    let w := haltHead (l.line.stopWatches.foldl (fun y no => conclude no a y)
      (concludeWatch l.line.startWatch a { l with line.startWatch := none, line.stopWatches := [] }))
    (s.turret.seq ≠ .pressing → raiseHalt c s = concludeWatch w.turret.now a
      (changeWishes (fun t => { t with turret.request := false }) { w with turret.now := none })) ∧
    (s.turret.seq = .pressing →
      let v := closePress w
      let u := { v with line.halts := v.line.halts.add .spliceFault }
      raiseHalt c s = afterPress w.turret (spliceFaultAnswer w.turret)
        (if w.turret.tail = true then { u with line.halts := u.line.halts.add .tailOut } else u))) ∧
  (∀ s : State, s.line.state = .halt →
    let t := haltHead s
    let kept := s.head.run.filter (fun r => r.purpose = .guard ∨ r.purpose = .splice)
    t.head.state = .retracted ∧ t.head.flight = none ∧ t.head.wanted = none ∧ t.head.panel = none ∧ t.head.align = none ∧
    t.head.run = kept ∧ t.head.suspended = none ∧ t.head.blade = [] ∧ t.head.late = ⟨0, 0⟩ ∧ t.head.aligned = false ∧
    t.head.offset = s.head.offset ∧ t.head.drainSpent = false ∧ t.head.f = s.head.f ∧ t.head.passage = s.head.passage ∧
    t.head.arrival = s.head.arrival ∧
    t.head.o = s.head.o + (match s.head.flight with
      | some fl => fl.unit.output
      | none => 0) ∧
    (s.head.panel = none → t.head.gapOwed = s.head.gapOwed ∧ t.head.committed = s.head.committed) ∧
    (∀ id, s.head.panel = some id →
      t.head.gapOwed = true ∧ t.head.committed = s.head.f ∧ t.head.counting = false ∧ t.head.expected = none ∧
      ∀ p ∈ t.web.panels, p.id = id → p.state = .inPath ∧ p.cut = true) ∧
    (∀ a, s.head.align = some a → s.head.flight = none → s.head.panel = none →
      let y := { s with
        head.wanted := none, head.blade := [], head.late := ⟨0, 0⟩, line.starved := false, line.stall := none }
      let w := concludeWatch a.entry (haltedAnswer s.line.cause) y
      let z := if w.web.segs.getLast?.any (fun g => g.kind == .trial) = true then closeNewest w else w
      t = { z with
        head.state := .retracted, head.align := none, head.run := kept, head.suspended := none, head.drainSpent := false
        head.aligned := false }))

/-- R137: Set Speed clamps the speed into the range in force, with the detail CLAMPED when it did, and recomputes the effective speed
(R138). R84, R137: Set Range in OFF and STANDBY. The range in force changes nothing, and UNCHANGED writes no result (the model's choice,
log entry 34); the other one clamps the commanded speed into itself, sets the accumulator limit to its maximum, makes the alignment
INVALID with its offset kept and recomputes the effective speed. Elsewhere Set Range is WRONG_STATE, also for a code that names neither range
(the model's choice, log entry 70). -/
def Obligations.SpeedAndRange : Prop :=
  (∀ (e : Env) (q : Req) (v : U16) (s : State) (x : Entry),
    dispatches e q (.setSpeed v) s x = true →
      let u := dispatched e q (.setSpeed v) s x
      let r := u.line.range
      let c := if v.toNat < r.min then r.min else if r.max < v.toNat then r.max else v.toNat
      let eff := min (min c r.max) (min u.line.ceiling u.line.limit)
      let t := { u with
        line.commanded := c, line.effective := eff
        line.speedRef := match u.line.state with
          | .run => eff
          | .stopping => eff
          | .thread => r.min
          | _ => 0 }
      exec (.setSpeed e q v) s = .next (settle (conclude x.no
        { doneDetail (if c = v.toNat then 1 else 2) with params := [(2, [b8 c, b8 eff])] } t))) ∧
  (∀ (e : Env) (q : Req) (code : U8) (s : State) (x : Entry),
    dispatches e q (.setRange code) s x = true →
      let u := dispatched e q (.setRange code) s x
      (u.line.state ≠ .off → u.line.state ≠ .standby → exec (.setRange e q code) s = .next (settle (conclude x.no
        (refusal .wrongState (senseVals [natVal u.line.state.code])) u))) ∧
      (u.line.state = .off ∨ u.line.state = .standby →
        (2 ≤ code.toNat → ∃ a, a.code = .badParam ∧ exec (.setRange e q code) s = .next (settle (conclude x.no a u))) ∧
        (∀ r, (code = 0 ∧ r = .low ∨ code = 1 ∧ r = .high) →
          (r = u.line.range → exec (.setRange e q code) s = .next (settle (conclude x.no (doneDetail 1) u))) ∧
          (r ≠ u.line.range →
            let c := if u.line.commanded < r.min then r.min else if r.max < u.line.commanded then r.max else u.line.commanded
            let t := { u with
              line.range := r, line.commanded := c, line.limit := r.max, head.aligned := false, line.speedRef := 0
              line.effective := min (min c r.max) (min u.line.ceiling r.max) }
            exec (.setRange e q code) s = .next (settle (conclude x.no
              { doneDetail 2 with params := [(2, [b8 c])] } t))))))

/-- R143: Set Line Constants in OFF with no splice arrival pending and a data area of 36 bytes that reads: a constant out of range refuses
the request with nothing applied (which one it names, and with what values, is the model's choice, log entries 45, 58 and 59); otherwise the
set is applied whole, with the crease window, the alignment INVALID, the latch judged, the wishes judged and the ceiling recomputed. R143: a
set of constants passes its checks exactly when every constant lies in the range of the table and C is not below the store. 11_formats.md:
constants that pass the checks of R143, written as Read Line Status writes them, read back as Set Line Constants and the bootstrap read
them. A bootstrap applies a set in the same way (R164). The values of SEGMENT_LIST for another length are the model's choice (log entry 64),
and so is that outside OFF the sense data gives the line state alone, also while an arrival is pending (log entry 71). -/
def Obligations.SetLineConstantsAppliesWhole : Prop :=
  (∀ (e : Env) (q : Req) (s : State) (x : Entry),
    dispatches e q .setLineConstants s x = true →
      let u := dispatched e q .setLineConstants s x
      (u.line.state ≠ .off → exec (.setLineConstants e q) s = .next (settle (conclude x.no
        (refusal .wrongState (senseVals [natVal u.line.state.code])) u))) ∧
      (∀ a, u.line.state = .off → u.head.arrival = some a → exec (.setLineConstants e q) s = .next (settle (conclude x.no
        (refusal .wrongState (senseVals (posVals a.pos ++ posVals u.head.f))) u))) ∧
      (u.line.state = .off → u.head.arrival = none → dataTotal q.data ≠ 36 → exec (.setLineConstants e q) s =
        .next (settle (conclude x.no (refusal .segmentList (senseField lenField [natVal (dataTotal q.data), 36])) u))) ∧
      (u.line.state = .off → u.head.arrival = none → dataTotal q.data = 36 →
        (u.load (dataAddrs q.data 36) = none → exec (.setLineConstants e q) s =
          .next (settle (conclude x.no (refusal .busFault Sense.none) u))) ∧
        (∀ bs, u.load (dataAddrs q.data 36) = some bs →
          let k := parseConsts bs
          (∀ f, constsFirstFail k u.line.store = some f → exec (.setLineConstants e q) s =
            .next (settle (conclude x.no (badField (fieldId 3 f.offset) f.vals) u))) ∧
          (constsFirstFail k u.line.store = none → exec (.setLineConstants e q) s = .next (settle (conclude x.no done
            (publish (changeWishes judgePoint (judgeLatch
              { u with line.consts := some k, head.window := k.window, head.aligned := false }))))))))) ∧
  (∀ (k : Consts) (a : Nat),
    constsFirstFail k a = none ↔
      (2000 ≤ k.p ∧ k.p ≤ 20000) ∧ (500 ≤ k.q ∧ k.q ≤ 10000 ∧ k.q ≤ k.p - 1) ∧ (1000 ≤ k.dEntry ∧ k.dEntry ≤ 8000) ∧
      ((∀ z ∈ [k.zone1, k.zone2, k.zone3, k.zone4], 4 ≤ z ∧ z ≤ 52) ∧ k.zone1 + k.zone2 + k.zone3 + k.zone4 = 64) ∧
      (20000 ≤ k.cap ∧ k.cap ≤ 200000 ∧ a ≤ k.cap) ∧ (k.cap / 4 ≤ k.reserve ∧ k.reserve ≤ k.cap) ∧
      (50000 ≤ k.rs ∧ k.rs ≤ 1000000) ∧ (300 ≤ k.overlap ∧ k.overlap ≤ 1000) ∧ (500 ≤ k.guardLen ∧ k.guardLen ≤ 2000) ∧
      k.gap ≤ 5000 ∧ k.overtravel ≤ 30 ∧ k.window ≤ 3 ∧ k.missTolerance ≤ 15 ∧
      (1 ≤ k.startTimeout ∧ k.startTimeout ≤ 30) ∧ (2 ≤ k.spliceTimeout ∧ k.spliceTimeout ≤ 60)) ∧
  (∀ k : Consts, constsFirstFail k 0 = none → (constsBytes k).length = 36 ∧ parseConsts (constsBytes k) = k) ∧
  (∀ (k : Consts) (s : State), applyConsts k s = publish (changeWishes judgePoint (judgeLatch
    { s with line.consts := some k, head.window := k.window, head.aligned := false })))

/-- R142, R144: the feed-stall deadline is reached 10,000 ms of line clock after it was set, modulo 2^32, and raises FEED_STALL; a command
taken before that has no effect (log entry 2). R129: the start deadline is reached when the STARTING time spent is the start timeout; the
line enters STANDBY and the Start completes as HEAT_TIMEOUT with the conditions unmet and the ceiling. R114: a purge begins when the
interval has passed since its timer started: 30,000 ms at a set point of 1,500 or more, else 60,000 ms; the drain opens and the timer starts
again, also when a drain is still open (the model's choice, log entry 25). It ends 2,000 ms after. A purge command before its time, or of a
zone without a timer, has no effect (log entry 2). The conditions of R129 unmet are coded as bits 0 to 3 (the model's choice, log entry 10).
-/
def Obligations.DeadlinesOfTheClock : Prop :=
  (∀ (e : Env) (s : State),
    let u := arrive e s
    (∀ c, u.line.stall = some c → 10000 ≤ (u.line.clock - c).toNat →
      exec (.feedStall e) s = .next (settle (raiseHalt .feedStall u))) ∧
    (∀ c, u.line.stall = some c → (u.line.clock - c).toNat < 10000 → exec (.feedStall e) s = .next (settle u)) ∧
    (u.line.stall = none → exec (.feedStall e) s = .next (settle u))) ∧
  (∀ (e : Env) (s : State) (k : Consts),
    let u := arrive e s
    let t := lineTo .standby u
    u.line.consts = some k →
      (∀ d, u.line.state = .starting → u.line.deadline = some d → 60000 * k.startTimeout ≤ d →
        exec (.startDeadlineExpiry e) s = .next (settle (concludeWatch t.line.startWatch
          (refusal .heatTimeout (senseVals [natVal u.unmet, natVal u.line.ceiling])) { t with line.startWatch := none }))) ∧
      (u.line.state ≠ .starting ∨ u.line.deadline = none ∨ (∃ d, u.line.deadline = some d ∧ d < 60000 * k.startTimeout) →
        exec (.startDeadlineExpiry e) s = .next (settle u))) ∧
  (∀ (e : Env) (z : ZoneId) (s : State),
    let u := arrive e s
    let y := u.zone z
    let interval := if 1500 ≤ y.setPoint then 30000 else 60000
    (∀ c, y.timer = some c → interval ≤ (u.line.clock - c).toNat → exec (.purgeBegin e z) s =
      .next (settle (u.mapZone z (fun w => { w with purging := true, timer := some u.line.clock })))) ∧
    (∀ c, y.timer = some c → (u.line.clock - c).toNat < interval → exec (.purgeBegin e z) s = .next (settle u)) ∧
    (y.timer = none → exec (.purgeBegin e z) s = .next (settle u)) ∧
    (∀ c, y.timer = some c → y.purging = true → 2000 ≤ (u.line.clock - c).toNat → exec (.purgeEnd e z) s =
      .next (settle (u.mapZone z (fun w => { w with purging := false })))) ∧
    (∀ c, y.timer = some c → y.purging = false ∨ (u.line.clock - c).toNat < 2000 →
      exec (.purgeEnd e z) s = .next (settle u)) ∧
    (y.timer = none → exec (.purgeEnd e z) s = .next (settle u))) ∧
  (∀ s : State, s.unmet = (if s.head.aligned = true then 0 else 1) + (if s.runningRoll = none then 2 else 0) +
    (if s.line.zonesReady = true then 0 else 4) + (if s.line.range.min ≤ s.line.ceiling then 0 else 8))

/-! ### Encoders, blade and marks -/

/-- R66: the metering travel is counted up to the draw length; the report that reaches it ends the draw; a unit whose draw has ended
completes when it has no strokes or its pleat-done has come. With no unit in flight nothing happens. R66, R117: a flat unit that completes
leaves the blade: O rises by its output, and while O stays below D_e + E no cell crosses. R67, R94: a pleat-done takes the strokes out of
the blade, a discarded one too (log entry 35). For a unit without strokes it is discarded, and so is a second one for a unit already
answered (the model's choice, log entry 67); otherwise its results are taken, missing ones ABSENT; those of a fold unit are counted in the
panel's record and in the absent run; a unit whose draw has ended completes; and with the stop-on-two constant set the second absent stroke
in a row halts the line (with the results, also before the draw has ended: log entry 13). R81, R82: a report that a unit finished by a cut
still owes is discarded whole, travel by what it owes, a pleat-done with the strokes of a later unit kept (the model's choice, log entry
46). R76, R78: a mark enters the list at F + q while fewer than eight wait, and is counted while COUNTING when it lies beyond the last start
mark; a ninth is lost. R66: a flat unit's output is reported first; R85: then the first result of a trial decides it, ABSENT when there is
none. R67: the absent run counts up to 2. -/
def Obligations.HeadReportsTaken : Prop :=
  (∀ (e : Env) (n : Nat) (s : State),
    let u := arrive e s
    (u.head.late.travel ≠ 0 → exec (.meteringAdvance e n) s =
      .next (settle { u with head.late := ⟨u.head.late.travel - n, u.head.late.pleats⟩ })) ∧
    (u.head.late.travel = 0 → u.head.flight = none → exec (.meteringAdvance e n) s = .next (settle u)) ∧
    (∀ fl, u.head.late.travel = 0 → u.head.flight = some fl →
      let ended := fl.drawEnd = true ∨ fl.unit.draw ≤ fl.travel + n
      let now := fun (b : Bool) =>
        { u with head.flight := some { fl with travel := min fl.unit.draw (fl.travel + n), drawEnd := b } }
      (¬ ended → exec (.meteringAdvance e n) s = .next (settle (now false))) ∧
      (ended → fl.unit.strokes ≠ [] → fl.results = none → exec (.meteringAdvance e n) s = .next (settle (now true))) ∧
      (ended → fl.unit.strokes = [] ∨ fl.results ≠ none → exec (.meteringAdvance e n) s = .next (settle (completeUnit
        { fl with travel := min fl.unit.draw (fl.travel + n), drawEnd := true } (now true)))))) ∧
  (∀ (fl : Flight) (s : State) (k : Consts),
    fl.unit.fold = false → fl.unit.trial = none → s.line.consts = some k →
    s.head.o + fl.unit.output < k.dEntry + s.chest.entry →
      completeUnit fl s = { s with
        head.flight := none, head.again := true, head.o := s.head.o + fl.unit.output }) ∧
  (∀ (e : Env) (rs : List Crease) (s : State),
    let u := arrive e s
    let bare := { u with head.blade := [] }
    (u.head.late.pleats ≠ 0 →
      let due := ∃ fl, u.head.flight = some fl ∧ fl.unit.strokes ≠ [] ∧ fl.results = none
      let rest : Late := ⟨u.head.late.travel, u.head.late.pleats - 1⟩
      (due → exec (.pleatDone e rs) s = .next (settle { u with head.late := rest })) ∧
      (¬ due → exec (.pleatDone e rs) s = .next (settle { bare with head.late := rest }))) ∧
    (u.head.late.pleats = 0 → u.head.flight = none → exec (.pleatDone e rs) s = .next (settle bare)) ∧
    (∀ fl, u.head.late.pleats = 0 → u.head.flight = some fl →
      let got := (rs ++ List.replicate fl.unit.strokes.length Crease.absent).take fl.unit.strokes.length
      let ok := got.countP (fun c => c == .present)
      let now := { bare with head.flight := some { fl with results := some got } }
      let fin := fun (t : State) => if fl.drawEnd = true then completeUnit { fl with results := some got } t else t
      (fl.unit.strokes = [] ∨ fl.results ≠ none → exec (.pleatDone e rs) s = .next (settle bare)) ∧
      (fl.unit.strokes ≠ [] → fl.results = none →
        (fl.unit.fold = false → exec (.pleatDone e rs) s = .next (settle (fin now))) ∧
        (∀ id k, fl.unit.fold = true → u.head.panel = some id → u.line.consts = some k →
          let counted := { now.mapPanel id (fun p => { p with
            formed := p.formed + ok, missed := p.missed + (got.length - ok) }) with
            head.absent := (absentRun u.head.absent got).1 }
          (k.stopOnTwo = false ∨ (absentRun u.head.absent got).2 = false →
            exec (.pleatDone e rs) s = .next (settle (fin counted))) ∧
          (k.stopOnTwo = true → (absentRun u.head.absent got).2 = true →
            exec (.pleatDone e rs) s = .next (settle (raiseHalt .missedFolds (fin counted)))))))) ∧
  (∀ (e : Env) (s : State) (k : Consts),
    let u := arrive e s
    let p := u.head.f + k.q
    u.line.consts = some k →
      (8 ≤ u.head.marks.length → exec (.markSensor e) s = .next (settle u)) ∧
      (u.head.marks.length < 8 → exec (.markSensor e) s = .next (settle { u with
        head.marks := u.head.marks ++ [p]
        head.counted := u.head.counted +
          (if u.head.counting = true ∧ u.head.lastMark.getD 0 < (p : Int) then 1 else 0) }))) ∧
  (∀ (fl : Flight) (s : State), fl.unit.fold = false →
    let w := reportOutput fl.unit.output { s with head.flight := none, head.again := true }
    let first := match fl.results with
      | some (c :: _) => c
      | _ => Crease.absent
    (fl.unit.trial = none → completeUnit fl s = w) ∧
    (∀ step, fl.unit.trial = some step → completeUnit fl s = trialOutcome step first w)) ∧
  (∀ (n : Nat) (c : Crease) (cs : List Crease),
    absentRun n [] = (n, false) ∧ absentRun n (.present :: cs) = absentRun 0 cs ∧
    (c ≠ .present → absentRun 0 (c :: cs) = absentRun 1 cs ∧ (absentRun 1 (c :: cs)).2 = true ∧
      (absentRun 1 (c :: cs)).1 = (absentRun 2 cs).1 ∧ absentRun 2 (c :: cs) = absentRun 2 cs))

/-- R41: an unwind advance credits the RUNNING roll's U with the advance or the remaining length, whichever is smaller, and none without a
RUNNING roll. R139, R153: it is taken into the store; an advance that overfills the store raises OVERFILL, one that exhausts the roll raises
TAIL_OUT, or sets the tail mark while PRESSING; the point wish is judged last (log entry 12 for the order). R139, R140, R141, R142: what an
advance does to the accumulator: the store up to C, the latch shut from 9/10 of C and open below half, the limit stepped down by 2 below a
quarter and up by 1 above half within the range, the effective speed recomputed, and a feed-stall deadline set anew. R140: the unwind runs
in THREAD, STARTING, RUN, HOLD and STOPPING, while the latch is open, a roll is RUNNING and no splice presses; the latch judged is shut from
C - C/10, open below C/2 and stays between, and the unwind with it. The unwind after an advance is judged with the latch as it then is,
opened or shut; the speed reference follows (R138), and nothing else changes. -/
def Obligations.UnwindAdvanceFillsTheStore : Prop :=
  (∀ (e : Env) (len : Nat) (s : State) (k : Consts),
    let u := arrive e s
    let credited := match u.runningRoll with
      | some r => u.mapRoll r.tag (fun y => { y with u := y.u + min len (y.declared - y.u) })
      | none => u
    let t := storeAdvance len credited
    let spill := k.cap < u.line.store + len
    let out := ∃ r, u.runningRoll = some r ∧ 0 < r.remaining ∧ r.remaining ≤ len
    let v := fun (w : State) => exec (.unwindAdvance e len) s = .next (settle (changeWishes judgePoint w))
    u.line.consts = some k →
      (¬ spill → ¬ out → v t) ∧
      (spill → ¬ out → v (raiseHalt .overfill t)) ∧
      (¬ spill → out → u.turret.seq ≠ .pressing → v (raiseHalt .tailOut t)) ∧
      (spill → out → u.turret.seq ≠ .pressing → v (raiseHalt .tailOut (raiseHalt .overfill t))) ∧
      (¬ spill → out → u.turret.seq = .pressing → v { t with turret.tail := true }) ∧
      (spill → out → u.turret.seq = .pressing → v (raiseHalt .overfill { t with turret.tail := true }))) ∧
  (∀ (len : Nat) (s : State) (k : Consts), s.line.consts = some k →
    let t := storeAdvance len s
    let a := min k.cap (s.line.store + len)
    t.line.store = a ∧
    (k.cap - k.cap / 10 ≤ a → t.line.latchShut = true ∧ t.line.unwind = false) ∧
    (a < k.cap - k.cap / 10 → a < k.cap / 2 → t.line.latchShut = false) ∧
    (a < k.cap - k.cap / 10 → k.cap / 2 ≤ a → t.line.latchShut = s.line.latchShut) ∧
    (a < k.cap / 4 → t.line.limit = max s.line.range.min (s.line.limit - 2)) ∧
    (k.cap / 4 ≤ a → a ≤ k.cap / 2 → t.line.limit = s.line.limit) ∧
    (k.cap / 2 < a → t.line.limit = min s.line.range.max (s.line.limit + 1)) ∧
    t.line.effective = min (min s.line.commanded s.line.range.max) (min s.line.ceiling t.line.limit) ∧
    (s.line.stall = none → t.line.stall = none) ∧ (s.line.stall ≠ none → t.line.stall = some s.line.clock) ∧
    t.turret = s.turret ∧ t.head = s.head ∧ t.web = s.web ∧ t.chest = s.chest ∧ t.orders = s.orders ∧ t.lib = s.lib ∧
    t.port = s.port ∧ t.mem = s.mem) ∧
  (∀ s : State,
    let c := s.k.cap
    let l := s.line.state
    let runs := fun (shut : Bool) => { s with
      line.latchShut := shut
      line.unwind := decide (l = .thread ∨ l = .starting ∨ l = .run ∨ l = .hold ∨ l = .stopping) && !shut &&
        s.runningRoll.isSome && decide (s.turret.seq ≠ .pressing) }
    judgeUnwind s = runs s.line.latchShut ∧
    (c - c / 10 ≤ s.line.store → judgeLatch s = runs true) ∧
    (s.line.store < c - c / 10 → s.line.store < c / 2 → judgeLatch s = runs false) ∧
    (s.line.store < c - c / 10 → c / 2 ≤ s.line.store → judgeLatch s = runs s.line.latchShut)) ∧
  (∀ (len : Nat) (s : State),
    let t := storeAdvance len s
    let l := s.line.state
    t.line.unwind = (decide (l = .thread ∨ l = .starting ∨ l = .run ∨ l = .hold ∨ l = .stopping) && !t.line.latchShut &&
      s.runningRoll.isSome && decide (s.turret.seq ≠ .pressing)) ∧
    t.line.speedRef = (match l with
      | .run => t.line.effective
      | .stopping => t.line.effective
      | .thread => s.line.range.min
      | _ => 0) ∧
    { t with
      line.store := s.line.store, line.latchShut := s.line.latchShut, line.unwind := s.line.unwind, line.limit := s.line.limit
      line.effective := s.line.effective, line.speedRef := s.line.speedRef, line.stall := s.line.stall } = s)

/-! ### Spindles and the press -/

/-- R148, R149: the spindle inputs are taken at their change to active: ready makes a LOADED spindle READY and its roll PREPARED, with the
ceiling and the trigger test following (R122, R151); core removed makes a CORE spindle EMPTY and takes its roll off it, ending a retire
watch that is due (R47). Any other change records the level alone. -/
def Obligations.SpindleInputsAtTheirChange : Prop :=
  ∀ (e : Env) (i : SpindleId) (level : Bool) (s : State),
    let u := arrive e s
    let ready := u.mapSpindle i (fun y => { y with readyIn := level })
    let core := u.mapSpindle i (fun y => { y with coreIn := level })
    let tag := (u.spindle i).tag.getD 0
    (level = true ∧ (u.spindle i).readyIn = false ∧ (u.spindle i).state = .loaded →
      exec (.spindleReady e i level) s = .next (settle (triggerTest (publish
        ((ready.mapRoll tag (fun r => { r with state := .prepared })).mapSpindle i (fun y => { y with state := .ready })))))) ∧
    (¬ (level = true ∧ (u.spindle i).readyIn = false ∧ (u.spindle i).state = .loaded) →
      exec (.spindleReady e i level) s = .next (settle ready)) ∧
    (level = true ∧ (u.spindle i).coreIn = false ∧ (u.spindle i).state = .core →
      exec (.coreRemoved e i level) s = .next (settle (endRollRetirement tag
        ((core.mapRoll tag (fun r => { r with spindle := none })).mapSpindle i
          (fun y => { y with state := .empty, tag := none }))))) ∧
    (¬ (level = true ∧ (u.spindle i).coreIn = false ∧ (u.spindle i).state = .core) →
      exec (.coreRemoved e i level) s = .next (settle core))

/-- R154, R155, R159: the splice-made input at its change to active while PRESSING: the rolls exchange roles at S_a = F + P + A, the unwind
is judged, a starved head gets a new deadline, the ceiling follows, a held Splice Now ends as MADE and waiting requests are retried; a
splice that conflicts with a FORMING panel raises SPLICE_FAULT after these (the model's order: log entries 12, 26, 37). Any other change
records the level alone. R154: what a made splice does to the rolls and the sequence: the outgoing roll SPENT with its spindle CORE, the
incoming one RUNNING with U = 0 and its spindle FEEDING, the arrival pending at the head, the press command off and the head and request
wishes clear; the sequence is PENDING when the new roll is already at its splice point and IDLE otherwise. R144, R156: the splice timeout
reached in PRESSING ends the press without a splice: the incoming roll is MOUNTED again, SPLICE_FAULT is raised, TAIL_OUT too when the
outgoing roll ran out, and a held Splice Now ends as SPLICE_FAULT; before it is reached the command has no effect (log entry 2). R156: a
press closed without a splice: the incoming roll MOUNTED with its spindle LOADED, the press command off, both rolls, the deadline and the
Splice Now gone from the press, the request wish clear with the other wishes kept, the sequence and the unwind judged, and a new deadline
for a head that is starved (R142). After a press the ceiling is recomputed, then the Splice Now completes and the requests that waited for
either roll are retried (log entry 26). That the tail mark stays as it was when a press closes without a splice is the model's choice (log
entry 36). The results of a made splice, PANEL_CUT with the committed end on a conflict, and of one that failed. R154: the point wish is
judged for the new RUNNING roll, the press deadline is absent, the tail mark clear, and the rest of the turret and of the part stays. -/
def Obligations.EndsOfAPress : Prop :=
  (∀ (e : Env) (level : Bool) (s : State) (out inc : PressRoll) (k : Consts),
    let u := arrive e s
    let t := { u with turret.splice := level }
    let made := level = true ∧ u.turret.splice = false ∧ u.turret.seq = .pressing
    let pos := u.head.f + k.p + u.line.store
    let conflict := u.head.panel ≠ none ∧ pos < u.head.committed + k.guardLen
    let v := afterPress t.turret (spliceMadeAnswer t out inc pos)
      (headAgain (restartStall (judgeUnwind (exchangeRolls out inc pos t))))
    (¬ made → exec (.spliceMade e level) s = .next (settle t)) ∧
    (made → u.line.consts = some k → u.turret.outgoing = some out → u.turret.incoming = some inc →
      (¬ conflict → exec (.spliceMade e level) s = .next (settle v)) ∧
      (conflict → exec (.spliceMade e level) s = .next (settle (raiseHalt .spliceFault v))))) ∧
  (∀ (out inc : PressRoll) (pos : Nat) (s : State), out.tag ≠ inc.tag → out.spindle ≠ inc.spindle →
    let t := exchangeRolls out inc pos s
    t.turret.rolls = s.turret.rolls.map (fun r =>
      if r.tag = out.tag then { r with state := .spent }
      else if r.tag = inc.tag then { r with state := .running, u := 0 } else r) ∧
    (t.spindle out.spindle).state = .core ∧ (t.spindle inc.spindle).state = .feeding ∧
    t.head.arrival = some ⟨pos, inc.tag⟩ ∧ t.head.wish = false ∧ t.turret.headWish = false ∧ t.turret.request = false ∧
    t.turret.pressOut = false ∧ t.turret.outgoing = none ∧ t.turret.incoming = none ∧ t.turret.now = none ∧
    t.turret.seq = (if t.runningRoll.isSome = true ∧ t.turret.point = true then .pending else .idle) ∧
    t.head.f = s.head.f ∧ t.web = s.web ∧ t.line = s.line ∧ t.mem = s.mem) ∧
  (∀ (e : Env) (s : State) (d : Deadline),
    let u := arrive e s
    let reached := u.turret.seq = .pressing ∧ u.turret.press = some d ∧ d.len ≤ (u.line.clock - d.setAt).toNat
    let t := raiseHalt .spliceFault (closePress u)
    (reached → exec (.spliceTimeout e) s = .next (settle (afterPress u.turret (spliceFaultAnswer u.turret)
      (if u.turret.tail then raiseHalt .tailOut t else t)))) ∧
    (u.turret.seq ≠ .pressing ∨ u.turret.press = none ∨ (u.turret.press = some d ∧ (u.line.clock - d.setAt).toNat < d.len) →
      exec (.spliceTimeout e) s = .next (settle u))) ∧
  (∀ s : State,
    let t := closePress s
    (∀ inc, s.turret.incoming = some inc →
      t.turret.rolls = s.turret.rolls.map (fun r => if r.tag = inc.tag then { r with state := .mounted } else r) ∧
      t.spindle inc.spindle = { s.spindle inc.spindle with state := .loaded } ∧
      ∀ i, i ≠ inc.spindle → t.spindle i = s.spindle i) ∧
    (s.turret.incoming = none → t.turret.rolls = s.turret.rolls ∧ ∀ i, t.spindle i = s.spindle i) ∧
    t.turret.pressOut = false ∧ t.turret.outgoing = none ∧ t.turret.incoming = none ∧ t.turret.press = none ∧
    t.turret.now = none ∧ t.turret.request = false ∧ t.turret.point = s.turret.point ∧ t.turret.headWish = s.turret.headWish ∧
    t.turret.tail = s.turret.tail ∧
    t.turret.seq = (if t.runningRoll.isSome = true ∧ (t.turret.point = true ∨ t.turret.headWish = true) then .pending else .idle) ∧
    t.line.stall = (if s.line.starved = true then some s.line.clock else none) ∧
    (t.line.unwind = true ↔ t.runningRoll.isSome = true ∧ s.line.latchShut = false ∧ (s.line.state = .thread ∨
      s.line.state = .starting ∨ s.line.state = .run ∨ s.line.state = .hold ∨ s.line.state = .stopping)) ∧
    { t with turret := s.turret, line.stall := s.line.stall, line.unwind := s.line.unwind } = s) ∧
  (∀ (old : Turret) (a : Answer) (s : State),
    afterPress old a s = retryFor (freesRolls old.outgoing old.incoming) (concludeWatch old.now a (publish s))) ∧
  (∀ (t : Turret) (out inc : PressRoll), t.outgoing = some out → t.incoming = some inc →
    spliceFaultAnswer t = { refusal .spliceFault Sense.none with
      params := [(0x08, le 4 inc.tag ++ le 4 out.tag), (0x1C, [b8 (if t.tail = true then 1 else 0)])] }) ∧
  (∀ (s : State) (out inc : PressRoll) (pos : Nat) (r : Roll) (k : Consts), s.findRoll out.tag = some r →
    s.line.consts = some k →
    let conflict := s.head.panel ≠ none ∧ pos < s.head.committed + k.guardLen
    let figures := [(0x00, le 6 pos), (0x08, le 4 inc.tag ++ le 4 out.tag ++ le 4 (r.declared - r.u))]
    (¬ conflict → spliceMadeAnswer s out inc pos = { doneDetail 1 with params := figures }) ∧
    (conflict → spliceMadeAnswer s out inc pos =
      { doneDetail 2 with params := figures ++ [(0x14, le 6 s.head.committed)] })) ∧
  (∀ s : State, restartStall s = { s with line.stall := if s.line.starved = true then some s.line.clock else none }) ∧
  (∀ (out inc : PressRoll) (pos : Nat) (s : State) (k : Consts), out.tag ≠ inc.tag → out.spindle ≠ inc.spindle →
    s.line.consts = some k →
    let t := exchangeRolls out inc pos s
    t.turret.press = none ∧ t.turret.tail = false ∧
    (t.turret.point = true ↔ ∃ r, t.runningRoll = some r ∧ r.declared - r.u ≤ k.rs) ∧
    (∀ r, s.findRoll inc.tag = some r → (∀ y ∈ s.turret.rolls, y.state = .running → y.tag = out.tag) →
      t.runningRoll = some { r with state := .running, u := 0 } ∧ (t.turret.point = true ↔ r.declared ≤ k.rs)) ∧
    t.spindle out.spindle = { s.spindle out.spindle with state := .core } ∧
    t.spindle inc.spindle = { s.spindle inc.spindle with state := .feeding } ∧
    { t.turret with
      spinA := s.turret.spinA, spinB := s.turret.spinB, rolls := s.turret.rolls, seq := s.turret.seq, point := s.turret.point
      headWish := s.turret.headWish, request := s.turret.request, outgoing := s.turret.outgoing
      incoming := s.turret.incoming, press := s.turret.press, tail := s.turret.tail, now := s.turret.now
      pressOut := s.turret.pressOut } = s.turret ∧
    { t with turret := s.turret, head.wish := s.head.wish, head.arrival := s.head.arrival } = s)

/-! ### The head at the end of an event -/

/-- R66, R69: with no report that calls on the head, an event ends with the state as it stands while a unit is in flight or the wanted draw,
if any, is not covered. R66, R139: a wanted draw that the store covers is taken: A falls and F rises by the draw, the unit is in flight, its
strokes go to the blade and starvation ends; O, the panel and the head's state stay. Whatever the head does at the end of an event, the
settings stay: the constants, the clock, the range and the commanded speed (R137, R143, R144), the fibre classes (R34), the zone parameters
(R107), the halt cause (R135) and the two halt inputs. R76: the draw drops the marks that now lie behind the blade. R30, R68: a chunk lowers
what is left of its run; a fold unit leaves the run. That the strokes stay on the output until the blade answers is the model's choice (log
entry 35). R139, R140, R151: after the draw the latch and the unwind are judged for the new store and the trigger test is made on the turret
as before; nothing else changes. -/
def Obligations.EndOfEventTakesTheDraw : Prop :=
  (∀ s : State, s.head.again = false →
    (s.head.flight ≠ none ∨ s.head.wanted = none ∨ (∃ u, s.head.wanted = some u ∧ s.line.store < u.draw)) → settle s = s) ∧
  (∀ (s : State) (u : DrawUnit), s.head.flight = none → s.head.again = false → s.head.wanted = some u →
    u.draw ≤ s.line.store →
      let t := settle s
      t.line.store = s.line.store - u.draw ∧ t.head.f = s.head.f + u.draw ∧ t.head.flight = some ⟨u, 0, false, none⟩ ∧
      t.head.wanted = none ∧ t.head.blade = (if u.strokes = [] then s.head.blade else u.strokes) ∧
      t.line.starved = false ∧ t.line.stall = none ∧
      t.head.o = s.head.o ∧ t.head.panel = s.head.panel ∧ t.head.state = s.head.state ∧ t.web = s.web ∧ t.orders = s.orders ∧
      t.chest = s.chest ∧ t.line.state = s.line.state ∧ t.mem = s.mem ∧ t.port = s.port) ∧
  (∀ s : State,
    let t := settle s
    t.line.consts = s.line.consts ∧ t.line.clock = s.line.clock ∧ t.line.range = s.line.range ∧
    t.line.commanded = s.line.commanded ∧ t.turret.classes = s.turret.classes ∧ t.chest.par = s.chest.par ∧
    t.line.cause = s.line.cause ∧ t.line.estop = s.line.estop ∧ t.line.drive = s.line.drive ∧
    t.pending = s.pending ∧ t.bus = s.bus) ∧
  (∀ (s : State) (u : DrawUnit), s.head.flight = none → s.head.again = false → s.head.wanted = some u →
    u.draw ≤ s.line.store →
      let t := settle s
      let off := match s.head.bound with
        | some b => (match b.marks with
          | some r => r.offset
          | none => 0)
        | none => 0
      t.head.marks = s.head.marks.dropWhile (fun p => decide (p + off < s.head.f + u.draw)) ∧
      (u.fold = true → t.head.run = s.head.run) ∧
      (u.fold = false → t.head.meter = s.head.meter ∧ t.head.cursor = s.head.cursor ∧
        t.head.run = s.head.run.map (fun r => { r with remaining := r.remaining.map (fun n => n - u.draw) })) ∧
      { t.head with
        f := s.head.f, flight := none, wanted := some u, blade := s.head.blade, marks := s.head.marks, run := s.head.run
        meter := s.head.meter, cursor := s.head.cursor } = s.head) ∧
  (∀ (s : State) (u : DrawUnit), s.head.flight = none → s.head.again = false → s.head.wanted = some u →
    u.draw ≤ s.line.store →
      let t := settle s
      let a := s.line.store - u.draw
      let c := s.k.cap
      let l := s.line.state
      let runs := fun (seq : SpliceState) =>
        decide (l = .thread ∨ l = .starting ∨ l = .run ∨ l = .hold ∨ l = .stopping) && !t.line.latchShut &&
          s.runningRoll.isSome && decide (seq ≠ .pressing)
      (c - c / 10 ≤ a → t.line.latchShut = true) ∧ (a < c - c / 10 → a < c / 2 → t.line.latchShut = false) ∧
      (a < c - c / 10 → c / 2 ≤ a → t.line.latchShut = s.line.latchShut) ∧
      t = triggerTest { t with turret := s.turret, line.unwind := runs s.turret.seq } ∧
      t.line.unwind = runs t.turret.seq ∧
      { t with
        head := s.head, turret := s.turret, line.store := s.line.store, line.latchShut := s.line.latchShut
        line.unwind := s.line.unwind, line.starved := s.line.starved, line.stall := s.line.stall } = s)

/-- R66, R69: with a report that calls on the head, the event ends with the head's part: RETRACTED it waits; FORMING its next fold unit is
wanted; FLAT or ALIGNING it takes the actions of a boundary. The draw then wanted is taken when the store covers it; else the head is
starved, with a feed-stall deadline outside PRESSING (R142), and goes on being starved when it wanted the same draw before (log entry 20).
With a unit in flight it only waits. R69: at a boundary no action is taken while MAP_FULL stands (log entry 14); a GUARD, SPLICE or GAP run
with length left goes on; a GAP run that has run ends; an owed gap begins in RUN (R179); then in THREAD the THREAD run or the next trial, in
STOPPING the drain, and in RUN the order asked for (R54), with the start tests when one is bound and the no-order drain when none is. R22,
R25, R26, R29, R31: the fold unit a FORMING panel wants at its cursor: the draw and the output are what the scaled running totals, with the
unit's consumption and output added, rise by; a pleat has a stroke for each fold, of the depth and the overtravel, at the end of the draw,
the first of two at its half, with the alignment offset. A fold unit drawn moves the totals and the cursor (R65): waist, then pass by pass
the groups pleat by pleat, then hem; empty ends of the panel are passed over. The page folded is the bound one. A passage is due where F is
S_a - guard, and nowhere else (the model's inference, log entry 23). -/
def Obligations.BoundaryTakesTheFirstAction : Prop :=
  (∀ s : State, s.head.again = true →
    (s.head.flight ≠ none ∨ s.head.state = .retracted → settle s = { s with head.again := false }) ∧
    (∀ t, s.head.flight = none →
      (s.head.state = .forming ∧ t = wantFold { s with head.wanted := none } ∨
        (s.head.state = .flat ∨ s.head.state = .aligning) ∧ t = boundary { s with head.wanted := none }) →
      (t.head.wanted = none → settle s = { t with head.again := false, line.starved := false, line.stall := none }) ∧
      (∀ u, t.head.wanted = some u →
        (u.draw ≤ t.line.store → settle s = { takeDraw u t with head.again := false }) ∧
        (t.line.store < u.draw → t.line.starved = true → s.head.wanted = some u → settle s = { t with head.again := false }) ∧
        (t.line.store < u.draw → ¬ (t.line.starved = true ∧ s.head.wanted = some u) → settle s = { t with
          head.again := false, line.starved := true
          line.stall := if t.turret.seq = .pressing then none else some t.line.clock })))) ∧
  (∀ s : State,
    let due := ∃ a, s.head.arrival = some a ∧ s.head.passage = .none ∧ s.head.f + s.k.guardLen = a.pos
    let is := fun (p : Purpose) => ∃ r, s.head.run = some r ∧ r.purpose = p
    let ended := ∃ r, s.head.run = some r ∧ r.remaining = some 0
    let owed := s.head.gapOwed = true ∧ s.line.state = .run ∧ s.head.passage = .none
    let free := s.line.holds.mapFull = false ∧ ¬ due ∧ ¬ owed ∧ ¬ is .guard ∧ ¬ is .splice ∧ ¬ is .gap
    (s.line.holds.mapFull = true → boundary s = s) ∧
    (s.line.holds.mapFull = false → ¬ due → ¬ owed → ¬ ended → ∀ r, s.head.run = some r →
      r.purpose = .guard ∨ r.purpose = .splice ∨ r.purpose = .gap → boundary s = wantChunk r none s) ∧
    (s.line.holds.mapFull = false → ¬ due → is .gap → ended → boundary s = boundary { s with head.run := none }) ∧
    (∀ k, s.line.holds.mapFull = false → ¬ due → owed → ¬ is .guard → ¬ is .splice → s.line.consts = some k →
      boundary s = boundary { s with
        head.gapOwed := false, head.run := if k.gap = 0 then none else some ⟨.gap, some k.gap, false, none⟩ }) ∧
    (free → s.line.state = .thread → s.head.align = none → boundary s = wantChunk (s.runOf .thread) none s) ∧
    (∀ a, free → s.line.state = .thread → s.head.align = some a → boundary s = wantTrial (s.runOf .trial) a s) ∧
    (free → s.line.state = .stopping → boundary s = stopDrain s) ∧
    (∀ b, free → s.line.state = .run → s.head.bound = some b → boundary s = startTests b s) ∧
    (free → s.line.state = .run → s.head.bound = none →
      let t := askOrder s.orders.length s
      (∀ b, t.head.bound = some b → boundary s = startTests b t) ∧ (t.head.bound = none → boundary s = orderDrain t))) ∧
  (∀ (s : State) (p : Page) (a : Meter), s.boundPage = some p → s.head.meter = some a →
    let c := s.head.cursor
    let scale := fun x => (20000 * x + (10000 - a.k)) / (2 * (10000 - a.k))
    let wants := fun (n w : Nat) (strokes : Nat → List Stroke) =>
      let d := scale (a.n + n) - a.m
      wantFold s = { s with head.wanted := some ⟨true, d, scale (a.w + w) - a.q, strokes d, none⟩ }
    let moves := fun (n w : Nat) (next : Cursor) => ∀ u : DrawUnit, u.fold = true →
      (takeDraw u s).head.cursor = next ∧ (takeDraw u s).head.meter = some { a with
        j := a.j + 1, n := a.n + n, w := a.w + w, m := scale (a.n + n), q := scale (a.w + w) }
    (c.part = .waist → wants p.waist p.waist (fun _ => []) ∧ moves p.waist p.waist ⟨.motif, 1, 1, 1⟩) ∧
    (c.part = .hem → wants p.hem p.hem (fun _ => []) ∧ moves p.hem p.hem ⟨.atEnd, 0, 0, 0⟩) ∧
    (∀ g f, c.part = .motif → p.groups[c.group - 1]? = some g → a.faces[c.group - 1]? = some f →
      let stroke := fun (right : Bool) (pos : Nat) => (⟨g.depth + s.k.overtravel, right, pos + s.head.offset⟩ : Stroke)
      let next : Cursor :=
        if c.pleat < g.count then ⟨.motif, c.pass, c.group, c.pleat + 1⟩
        else if c.group < p.groups.length then ⟨.motif, c.pass, c.group + 1, 1⟩
        else if c.pass < p.motif then ⟨.motif, c.pass + 1, 1, 1⟩
        else if p.hem = 0 then ⟨.atEnd, 0, 0, 0⟩
        else ⟨.hem, 0, 0, 0⟩
      (g.kind = .flat → wants f f (fun _ => []) ∧ moves f f next) ∧
      (g.kind = .knifeLeft → wants (f + 2 * g.depth) f (fun d => [stroke false d]) ∧ moves (f + 2 * g.depth) f next) ∧
      (g.kind = .knifeRight → wants (f + 2 * g.depth) f (fun d => [stroke true d]) ∧ moves (f + 2 * g.depth) f next) ∧
      (g.kind = .box → wants (f + 4 * g.depth) f (fun d => [stroke true (d / 2), stroke false d]) ∧
        moves (f + 4 * g.depth) f next) ∧
      (g.kind = .invertedBox → wants (f + 4 * g.depth) f (fun d => [stroke false (d / 2), stroke true d]) ∧
        moves (f + 4 * g.depth) f next))) ∧
  (∀ (p : Page) (letter : Letter) (size k : Nat),
    let scale := fun x => (20000 * x + (10000 - k)) / (2 * (10000 - k))
    p.meter letter size k = ⟨letter, size, k,
      p.groups.map (fun g => ((g.face : Int) + ((size : Int) - (p.base : Int)) * g.step).toNat), 0, 0, 0, 0, 0,
      scale (p.totalN size), scale (p.totalW size)⟩ ∧
    p.firstCursor = if p.waist = 0 then ⟨.motif, 1, 1, 1⟩ else ⟨.waist, 0, 0, 0⟩) ∧
  (∀ (s : State) (p : Purpose),
    (s.head.bound = none → s.boundPage = none) ∧ (∀ b, s.head.bound = some b → s.boundPage = (s.slot b.pattern).page b.letter) ∧
    (∀ r, s.head.run = some r → r.purpose = p → s.runOf p = r) ∧
    ((∀ r, s.head.run = some r → r.purpose ≠ p) → s.runOf p = ⟨p, none, false, none⟩))

/-- R69, R75: at the boundary where F is S_a - guard and no passage has begun, the passage begins: the run in progress is suspended and a
GUARD run of the guard length drawn. At its end the SPLICE stage begins: the arrival is cleared, the trigger test made (R151), and a SPLICE
run of max(1,000, overlap + guard) drawn under the incoming roll. At its end the passage is NONE and the suspended run goes on, its segment
to be opened afresh, with whatever the boundary then brings, a second passage too. R68: a chunk is of 500 units, or as many as the run has
left, and ends at S_a - guard when that lies ahead; the first chunk of a run opens its segment for its roll or the blade roll; a full
segment list raises MAP_FULL for one place. With a seek point (R77, R78) that lies ahead a chunk ends there. Chunks draw from the blade
roll: the newest segment's, else the RUNNING roll; with none nothing is drawn. That no passage begins past that point, which no run reaches,
is the model's inference (log entry 23). -/
def Obligations.PassageOfASplice : Prop :=
  (∀ (s : State) (k : Consts), s.line.holds.mapFull = false → s.line.consts = some k →
    (∀ a, s.head.arrival = some a → s.head.passage = .none → s.head.f + k.guardLen = a.pos →
      (∀ r, s.head.run = some r → r.purpose ≠ .guard ∧ r.purpose ≠ .splice) →
      let r : Run := ⟨.guard, some k.guardLen, false, none⟩
      boundary s = wantChunk r none { s with head.passage := .guard, head.suspended := s.head.run, head.run := some r }) ∧
    (∀ g a, s.head.run = some g → g.purpose = .guard → g.remaining = some 0 → s.head.arrival = some a →
      let r : Run := ⟨.splice, some (max 1000 (k.overlap + k.guardLen)), false, some a.roll⟩
      boundary s = wantChunk r none
        (triggerTest { s with head.passage := .splice, head.arrival := none, head.run := some r })) ∧
    (∀ g, s.head.run = some g → g.purpose = .splice → g.remaining = some 0 →
      (∀ r, s.head.suspended = some r → r.purpose ≠ .guard ∧ r.purpose ≠ .splice) →
      boundary s = boundary { s with
        head.passage := .none, head.suspended := none
        head.run := s.head.suspended.map (fun r => { r with opened := false }) })) ∧
  (∀ (s : State) (k : Consts) (r : Run) (roll : Nat), s.line.consts = some k → s.bladeRoll = some roll →
    let room := match r.remaining with
      | some n => min 500 n
      | none => 500
    let len := match s.head.arrival, s.head.passage with
      | some a, .none => if s.head.f < a.pos - k.guardLen then min room (a.pos - k.guardLen - s.head.f) else room
      | _, _ => room
    let wants := fun (t : State) => { t with head.wanted := some ⟨false, len, len, [], none⟩ }
    (r.opened = true → wantChunk r none s = wants { s with head.run := some r }) ∧
    (r.opened = false →
      let kind := match r.purpose with
        | .splice => SegKind.splice
        | .trial => .trial
        | _ => .flat
      let opened := openSeg kind (r.roll.getD roll) none { s with head.run := some r }
      (opened = none → wantChunk r none s = raiseReason .mapFull { s with head.run := some r, head.mapNeed := 1 }) ∧
      (∀ t, opened = some t → t.head.f = s.head.f → t.head.arrival = s.head.arrival → t.head.passage = s.head.passage →
        t.line.consts = s.line.consts → wantChunk r none s = wants { t with head.run := some { r with opened := true } }))) ∧
  (∀ (s : State) (k : Consts) (r : Run) (roll q : Nat), s.line.consts = some k → s.bladeRoll = some roll →
    let room := match r.remaining with
      | some n => min 500 n
      | none => 500
    let near := match s.head.arrival, s.head.passage with
      | some a, .none => if s.head.f < a.pos - k.guardLen then min room (a.pos - k.guardLen - s.head.f) else room
      | _, _ => room
    let len := if s.head.f < q then min near (q - s.head.f) else near
    let wants := fun (t : State) => { t with head.wanted := some ⟨false, len, len, [], none⟩ }
    (r.opened = true → wantChunk r (some q) s = wants { s with head.run := some r }) ∧
    (r.opened = false →
      let kind := match r.purpose with
        | .splice => SegKind.splice
        | .trial => .trial
        | _ => .flat
      let opened := openSeg kind (r.roll.getD roll) none { s with head.run := some r }
      (opened = none →
        wantChunk r (some q) s = raiseReason .mapFull { s with head.run := some r, head.mapNeed := 1 }) ∧
      (∀ t, opened = some t → t.head.f = s.head.f → t.head.arrival = s.head.arrival → t.head.passage = s.head.passage →
        t.line.consts = s.line.consts →
        wantChunk r (some q) s = wants { t with head.run := some { r with opened := true } }))) ∧
  (∀ s : State,
    (∀ older g, s.web.segs = older ++ [g] → s.bladeRoll = some g.roll) ∧
    (∀ r, s.web.segs = [] → s.runningRoll = some r → s.bladeRoll = some r.tag) ∧
    (s.web.segs = [] → s.runningRoll = none → s.bladeRoll = none) ∧
    (∀ r a seek, s.bladeRoll = none → wantChunk r seek s = s ∧ wantTrial r a s = s))

/-- R70: the start tests in their order: a free panel record, else PANELS_FULL; two free segment places, else MAP_FULL; the horizon (R71),
which sets or clears the head's splice wish, else a WAIT chunk; and for a MARKED order the start position (R77, R78), else a SEEK chunk;
while not COUNTING the expected start E is set to F at the first boundary that makes this test (the model's choice, log entry 19). R77, R78:
the start position is that of the usable mark, the first in the list whose mark plus offset is not behind F and which, while COUNTING, is
the N-th or a later mark since the last start (its number read from its place from the tail: log entry 19); a panel starts there, or
self-framed from E + 3NR/2 on with no usable mark, E being, while COUNTING, the last start mark plus offset and NR; else the head seeks the
nearer of the two that lies ahead (the model's choice, log entry 43). A MARKED start sets the last start mark to F less the offset, counts
marks afresh and is COUNTING. A FREE order that passes starts and wants its first fold unit. R72, R93: a panel starts: its record with T and
the output length frozen from the page, the size and the k of the blade roll's class, the committed end F + T, the order's live panels, a
PANEL segment with the panel's id, the cursor at the first unit and the absent run 0. A roll that is absent counts as class 0 (log entry
28). The live count rises whatever the port does; where its append completes a retirement that finds a ring fault (R172; no run's counts
lead there) the notify watches are gone. -/
def Obligations.PanelStartsWhenItsTestsPass : Prop :=
  (∀ (s : State) (b : Bound) (p : Page) (roll : Nat) (k : Consts),
    s.line.consts = some k → s.bladeRoll = some roll → s.boundPage = some p →
    let cls := ((s.findRoll roll).map Roll.cls).getD 0
    let t := (p.measure b.size (s.allowance cls)).t
    let fits := match s.head.arrival with
      | some a => s.head.f + t + k.guardLen ≤ a.pos
      | none => t + k.guardLen + k.rs ≤ k.p + s.line.store + ((s.runningRoll.map (fun r => r.declared - r.u)).getD 0)
    let reported := fun (w : Bool) => if s.head.wish = w ∧ s.turret.headWish = w then s
      else changeWishes (fun y => { y with head.wish := w, turret.headWish := w }) s
    (64 ≤ s.web.panels.length → startTests b s = raiseReason .panelsFull s) ∧
    (s.web.panels.length < 64 → 126 < s.web.segs.length →
      startTests b s = raiseReason .mapFull { s with head.mapNeed := 2 }) ∧
    (s.web.panels.length < 64 → s.web.segs.length ≤ 126 →
      (¬ fits → (reported true).line.state ≠ .run → startTests b s = reported true) ∧
      (¬ fits → (reported true).line.state = .run →
        startTests b s = wantChunk ((reported true).runOf .wait) none (reported true)) ∧
      (fits → (reported false).line.state ≠ .run → startTests b s = reported false) ∧
      (fits → (reported false).line.state = .run → b.marks = none →
        startTests b s = wantFold (startPanel b p roll false (reported false))) ∧
      (∀ r, fits → (reported false).line.state = .run → b.marks = some r →
        let w := reported false
        let v := if w.head.counting = true then w
          else { w with head.expected := some (w.head.expected.getD w.head.f) }
        (∀ self, v.framing r = .start self → startTests b s = wantFold (registered r (startPanel b p roll self v))) ∧
        (∀ point, v.framing r = .seek point → startTests b s = wantChunk (v.runOf .seek) point v)))) ∧
  (∀ (b : Bound) (p : Page) (roll : Nat) (self : Bool) (s : State), s.line.state = .run → s.bladeRoll = some roll →
    let cls := ((s.findRoll roll).map Roll.cls).getD 0
    let a := p.meter b.letter b.size (s.allowance cls)
    let id := s.web.nextPanel
    let t := startPanel b p roll self s
    let live := fun (y : Order → Order) =>
      s.orders.map (fun o => if o.tag = b.tag then { y o with live := o.live + 1 } else y o)
    t.head.committed = s.head.f + a.takeup ∧ t.head.panel = some id ∧ t.head.state = .forming ∧ t.head.meter = some a ∧
    t.head.cursor = p.firstCursor ∧ t.head.absent = 0 ∧ t.head.run = none ∧ t.head.f = s.head.f ∧ t.head.o = s.head.o ∧
    t.web.panels = s.web.panels ++ [
      { id := id, state := .forming, order := b.tag, pattern := b.pattern, page := b.letter, size := b.size, roll := roll
        segment := some s.web.nextSeg, k := a.k, takeup := a.takeup, out := a.out, strokes := p.strokeCount, formed := 0
        missed := 0, minDose := none, peak := 0, started := s.line.clock, exitTime := none, unregistered := self, cut := false
        purged := false, verdict := none, reasons := ⟨false, false, false, false, false, false⟩ }] ∧
    (∃ o, t.web.segs.getLast? = some ⟨s.web.nextSeg, .panel, roll, some id, s.head.f, none, o, none⟩) ∧
    (t.port.state = s.port.state → t.orders = live (fun o => o)) ∧
    (t.port.state ≠ s.port.state → t.orders = live (fun o => { o with watch := none }))) ∧
  (∀ (r : Marks) (s : State),
    let f := s.head.f
    let e : Int := if s.head.counting = true then s.head.lastMark.getD 0 + r.offset + r.mult * r.rep
      else ((s.head.expected.getD f : Nat) : Int)
    let due : Int := e + ((3 * r.mult * r.rep / 2 : Nat) : Int)
    let usable := fun (i p : Nat) => s.head.marks[i]? = some p ∧ f ≤ p + r.offset ∧
      (s.head.counting = true → (r.mult : Int) + ((s.head.marks.length : Int) - 1 - i) ≤ s.head.counted)
    let first := fun (p : Nat) => ∃ i, usable i p ∧ ∀ j q, j < i → ¬ usable j q
    (∀ p, first p → p + r.offset = f → s.framing r = .start false) ∧
    (∀ p, first p → p + r.offset ≠ f → (f : Int) < due → s.framing r = .seek (some (min (p + r.offset) due.toNat))) ∧
    (∀ p, first p → p + r.offset ≠ f → due ≤ (f : Int) → s.framing r = .seek (some (p + r.offset))) ∧
    ((∀ i p, ¬ usable i p) → (due ≤ (f : Int) → s.framing r = .start true) ∧
      ((f : Int) < due → s.framing r = .seek (some due.toNat))) ∧
    registered r s = { s with
      head.lastMark := some ((f : Int) - r.offset), head.counted := 0, head.counting := true, head.expected := none })

/-- R56, R72: a panel completes at the output report of its last unit: its open PANEL segment is closed at the current F and O, its record
becomes IN_PATH, the head is without a panel, meter and cursor and begins a GAP run, but in STOPPING and THREAD; its order's m falls and
formed rises by one, and an order that then owes nothing, or is cancelled, is released: AWAITING_EXIT with no page, the head unbound, and
complete when no panel is live (R58). R56, R81: a panel cut: IN_PATH with CUT, the committed end at F, the registration SEEKING; an order
that is not cancelled keeps its state. R82: a cut by request first withdraws the wanted draw and finishes a unit in flight with its output
reported, its later reports being owed (log entry 46), then cuts, begins the gap in RUN, leaves it owed in HOLD and STARTING, and makes the
trigger test (R151). R66, R72: a fold unit that completes reports its output first; with the cursor at the end its panel then completes;
otherwise the panel goes on FORMING, with its cursor and totals. Both next states are given whole, with the order's report inside: the panel
complete report of the panel's order when it completes, the panel cut report when it is cut. A panel that completes in THREAD (log entry 33)
begins no GAP run there (the model's choice, log entry 68). In the one output report that completes an order's last panel and brings an
earlier panel of that order out, the exit is counted before the panel is complete (R57, R56; the model's choice, log entry 69). -/
def Obligations.PanelsCompleteAndAreCut : Prop :=
  (∀ (s : State) (id : Nat) (g : Segment) (rest : List Segment),
    s.web.segs = rest ++ [g] → g.fEnd = none → g.kind = .panel →
    let closed := rest ++ [{ g with fEnd := some s.head.f, oEnd := some s.head.o }]
    let t := panelComplete id s
    let c := cutPanel id s
    (t.web.segs = closed ∧
      t.web.panels = s.web.panels.map (fun p => if p.id = id then { p with state := .inPath } else p) ∧
      t.head.panel = none ∧ t.head.meter = none ∧ t.head.cursor = Cursor.clear ∧ t.head.f = s.head.f ∧ t.head.o = s.head.o ∧
      t.line.state = s.line.state ∧
      (s.line.state = .run → t.head.state = .flat ∧
        ∀ k, s.line.consts = some k →
          t.head.run = if k.gap = 0 then none else some ⟨.gap, some k.gap, false, none⟩) ∧
      (s.line.state = .stopping → t.head.run = s.head.run)) ∧
    c.web.segs = closed ∧
    c.web.panels = s.web.panels.map (fun p => if p.id = id then { p with state := .inPath, cut := true } else p) ∧
    c.head.panel = none ∧ c.head.meter = none ∧ c.head.cursor = Cursor.clear ∧ c.head.committed = s.head.f ∧
    c.head.counting = false ∧ c.head.expected = none ∧ c.head.f = s.head.f ∧ c.head.o = s.head.o ∧
    (∀ o, s.findOrder (s.panelOrder id) = some o → o.cancel = false → c.orders = s.orders ∧ c.head.bound = s.head.bound)) ∧
  (∀ (s : State) (tag : Nat) (o : Order), s.findOrder tag = some o →
    let put := fun (y : Order → Order) => s.mapOrder tag y
    let released := fun (y : Order) => { y with m := 0, state := .awaitingExit, page := none }
    (1 < o.m → o.cancel = false →
      orderPanelComplete tag s = put (fun y => { y with m := y.m - 1, formed := y.formed + 1 })) ∧
    (o.m ≤ 1 ∨ o.cancel = true → orderPanelComplete tag s = completeOrder tag
      { put (fun y => released { y with formed := y.formed + 1 }) with head.bound := none }) ∧
    (o.cancel = false → orderPanelCut tag s = s) ∧
    (o.cancel = true → orderPanelCut tag s = completeOrder tag { put released with head.bound := none }) ∧
    (o.m = 0 → o.live = 0 → completeOrder tag s = concludeWatch o.watch
      { doneDetail (if o.cancel then 2 else 1) with params := [(0x10, o.counts)] } (removeOrder o s)) ∧
    (o.m ≠ 0 ∨ o.live ≠ 0 → completeOrder tag s = s)) ∧
  (∀ s : State,
    (s.head.panel = none → cutByRequest s = s) ∧
    (∀ id, s.head.panel = some id →
      let w := { s with head.wanted := none, line.starved := false, line.stall := none }
      let begins := fun (t : State) =>
        let v := { cutPanel id t with head.again := true }
        let gap : Option Run := if v.k.gap = 0 then none else some ⟨.gap, some v.k.gap, false, none⟩
        triggerTest (if v.line.state = .run then { v with head.run := gap }
          else if v.line.state = .stopping then v else { v with head.gapOwed := true })
      (s.head.flight = none → cutByRequest s = begins w) ∧
      (∀ fl, s.head.flight = some fl →
        let owed : Late := ⟨s.head.late.travel + (fl.unit.draw - fl.travel),
          s.head.late.pleats + if fl.unit.strokes = [] ∨ fl.results ≠ none then 0 else 1⟩
        cutByRequest s = begins (reportOutput fl.unit.output { w with head.flight := none, head.late := owed })))) ∧
  (∀ (fl : Flight) (s : State), fl.unit.fold = true →
    let w := reportOutput fl.unit.output { s with head.flight := none, head.again := true }
    (∀ id, s.head.panel = some id → s.head.cursor.part = .atEnd → completeUnit fl s = panelComplete id w) ∧
    (s.head.panel = none ∨ s.head.cursor.part ≠ .atEnd → completeUnit fl s = w) ∧
    w.head.panel = s.head.panel ∧ w.head.cursor = s.head.cursor ∧ w.head.meter = s.head.meter ∧ w.head.f = s.head.f ∧
    w.head.o = s.head.o + fl.unit.output ∧
    (∀ k, s.line.consts = some k → s.head.o + fl.unit.output < k.dEntry + s.chest.entry →
      w = { s with head.flight := none, head.again := true, head.o := s.head.o + fl.unit.output }) ∧
    (∀ id p, s.findPanel id = some p → p.state = .forming →
      (∀ g ∈ s.web.segs, g.kind = .panel → g.panel = some id → g.oEnd = none) →
      ∃ y, w.findPanel id = some y ∧ y.state = .forming)) ∧
  (∀ (tag : Nat) (s : State), releaseOrder tag s = completeOrder tag
    { s.mapOrder tag (fun o => { o with m := 0, state := .awaitingExit, page := none }) with head.bound := none }) ∧
  (∀ (s : State) (id : Nat) (g : Segment) (rest : List Segment),
    s.web.segs = rest ++ [g] → g.fEnd = none → g.kind = .panel →
    let closed := fun (y : Panel → Panel) => { s with
      web.segs := rest ++ [{ g with fEnd := some s.head.f, oEnd := some s.head.o }]
      web.panels := s.web.panels.map (fun p => if p.id = id then y p else p) }
    let left := fun (v : State) => { v with
      head.panel := none, head.meter := none, head.cursor := Cursor.clear
      head.state := match s.line.state with
        | .run => .flat
        | .stopping => .flat
        | .thread => if s.head.align.isSome then .aligning else .flat
        | _ => .retracted }
    let told := left (orderPanelComplete (s.panelOrder id) (closed (fun p => { p with state := .inPath })))
    let cut := left (orderPanelCut (s.panelOrder id) (closed (fun p => { p with state := .inPath, cut := true })))
    let gap : Option Run := if s.k.gap = 0 then none else some ⟨.gap, some s.k.gap, false, none⟩
    (s.line.state = .stopping ∨ s.line.state = .thread → panelComplete id s = told) ∧
    (s.line.state ≠ .stopping → s.line.state ≠ .thread → panelComplete id s = { told with head.run := gap }) ∧
    cutPanel id s = { cut with head.committed := s.head.f, head.counting := false, head.expected := none } ∧
    (∀ p, s.findPanel id = some p → s.panelOrder id = p.order))

/-- R79: the no-order drain: begun with the drain length while the mark is clear; drawn while it has length left; when its length is used up
the run ends, the mark is set and NO_ORDER raised; with the mark set NO_ORDER is raised at once. R80, R134: the drain of STOPPING: begun
with the drain length, in place of a WAIT, SEEK or owed GAP, or kept and drawn while it has length left; when its length is used up the line
enters STANDBY and every held Stop completes as DONE, oldest first (the order is the model's choice, log entry 37). The drain length is
D_entry + 32,000 (R68). R131: NO_ORDER puts the line in HOLD. -/
def Obligations.DrainsOfRunAndStop : Prop :=
  ∀ (s : State) (k : Consts), s.line.consts = some k →
    let whole : Run := ⟨.drain, some (k.dEntry + 32000), false, none⟩
    let draining := ∃ r, s.head.run = some r ∧ r.purpose = .drain
    (∀ r, s.head.run = some r → r.purpose = .drain →
      (r.remaining ≠ some 0 → orderDrain s = wantChunk r none s ∧ stopDrain s = wantChunk r none s) ∧
      (r.remaining = some 0 →
        orderDrain s = raiseReason .noOrder { s with head.run := none, head.drainSpent := true } ∧
        stopDrain s =
          let t := lineTo .standby { s with head.run := none }
          t.line.stopWatches.foldl (fun y no => conclude no done y) { t with line.stopWatches := [] })) ∧
    (¬ draining →
      (s.head.drainSpent = false → orderDrain s = wantChunk whole none s) ∧
      (s.head.drainSpent = true → orderDrain s = raiseReason .noOrder { s with head.run := none }) ∧
      stopDrain s = wantChunk whole none { s with head.gapOwed := false }) ∧
    (s.line.state = .run → (raiseReason .noOrder s).line.state = .hold ∧ (raiseReason .noOrder s).line.holds.noOrder = true) ∧
    (s.line.state = .stopping →
      (lineTo .standby s).line.state = .standby ∧ (lineTo .standby s).line.stopWatches = s.line.stopWatches)

/-! ### Encodings -/

/-- 11_formats.md: the kind byte, the option flag and the parameter area that spell a request read back as that request. R14, 11_formats.md:
a page in range, written as Read Pattern writes it, is the page that Define Pattern reads. 11_formats.md: the lengths of the records. -/
def Obligations.RequestsAndPagesReadBack : Prop :=
  (∀ c : Call, decodeCall (encodeCall c).1 (encodeCall c).2.1 (encodeCall c).2.2 = some c) ∧
  (∀ p : Page, p.name.length = 8 → p.base ≤ 11 → p.waist ≤ 5000 → p.hem ≤ 5000 → 1 ≤ p.motif → p.motif ≤ 64 →
    p.groups.length ≤ 32 →
    (∀ g ∈ p.groups, 1 ≤ g.count ∧ g.count ≤ 255 ∧ 20 ≤ g.face ∧ g.face ≤ 2000 ∧ -50 ≤ g.step ∧ g.step ≤ 50 ∧
      (if g.kind = .flat then g.depth = 0 else 20 ≤ g.depth ∧ g.depth ≤ 600)) →
    p.bytes.length = 16 + 8 * p.groups.length ∧ parsePage p.bytes p.groups.length = .ok p) ∧
  (∀ (r : Roll) (o : Order) (place : Nat) (g : Segment) (p : Panel) (s : State) (z : Zone) (n : Nat) (now : Clock) (c : Cell),
    r.bytes.length = 32 ∧ (o.bytes place).length = 32 ∧ g.bytes.length = 40 ∧ (s.panelRecord p).length = 72 ∧
    (z.bytes n now).length = 16 ∧ (c.bytes n).length = 20 ∧ s.headFields.flatten.length = 48)

/-! ### The whole machine -/

/-- Every step keeps the invariants of Safety.lean: the canonical form of shared memory, the table sizes (R1, R34, R107, R116), the trial
slot (R5), the store within C (R139), the speeds in range and driven (R126, R138), the press command and the unwind (R140, R160), the
rolls (R39, R41), the request table (R168), the head state (R63), the hold reasons (R131) and the halt causes (R135, R136); and outside READY
nothing is held: no entry, post, ring, fetch, watch or list names a request, also when a ring fault met in the middle of an event dropped
them (R162, R165, R172, R175; log entry 72). -/
def Obligations.EveryStepKeepsTheInvariants : Prop :=
  ∀ s t : State, Inv s → step s = .next t → Inv t

/-- R126, R143, R144: no command but POWER_ON sets the line clock otherwise than by the milliseconds that passed, unsets the line constants,
or touches the waiting commands; and every command completes. -/
def Obligations.ClockRunsThroughEveryCommand : Prop :=
  ∀ (c : Instr) (s : State), (∀ e l, c ≠ .powerOn e l) →
    ∃ t, exec c s = .next t ∧ t.line.clock = s.line.clock + BitVec.ofNat 32 (commandEnv c).elapsed ∧
      (s.line.consts ≠ none → t.line.consts ≠ none) ∧ t.pending = s.pending
end

