-- ==== Sys2Proof/Laws/State.lean ====
section
/-! SUPPORT. One lemma per field and update: which parts of the state the record updates of the operations leave as they are.
Generated in the order of the operations' files; every lemma holds by unfolding. -/

namespace Sys2Proof.Machine

variable (s : State)

/-! `store` -/

@[simp] theorem store_bus (ps : List (Nat × Byte)) : (s.store ps).bus = s.bus := rfl
@[simp] theorem store_port (ps : List (Nat × Byte)) : (s.store ps).port = s.port := rfl
@[simp] theorem store_lib (ps : List (Nat × Byte)) : (s.store ps).lib = s.lib := rfl
@[simp] theorem store_orders (ps : List (Nat × Byte)) : (s.store ps).orders = s.orders := rfl
@[simp] theorem store_head (ps : List (Nat × Byte)) : (s.store ps).head = s.head := rfl
@[simp] theorem store_web (ps : List (Nat × Byte)) : (s.store ps).web = s.web := rfl
@[simp] theorem store_chest (ps : List (Nat × Byte)) : (s.store ps).chest = s.chest := rfl
@[simp] theorem store_line (ps : List (Nat × Byte)) : (s.store ps).line = s.line := rfl
@[simp] theorem store_turret (ps : List (Nat × Byte)) : (s.store ps).turret = s.turret := rfl
@[simp] theorem store_pending (ps : List (Nat × Byte)) : (s.store ps).pending = s.pending := rfl

/-! `mapEntry` -/

@[simp] theorem mapEntry_mem (no : Nat) (f : Entry → Entry) : (s.mapEntry no f).mem = s.mem := rfl
@[simp] theorem mapEntry_bus (no : Nat) (f : Entry → Entry) : (s.mapEntry no f).bus = s.bus := rfl
@[simp] theorem mapEntry_lib (no : Nat) (f : Entry → Entry) : (s.mapEntry no f).lib = s.lib := rfl
@[simp] theorem mapEntry_orders (no : Nat) (f : Entry → Entry) : (s.mapEntry no f).orders = s.orders := rfl
@[simp] theorem mapEntry_head (no : Nat) (f : Entry → Entry) : (s.mapEntry no f).head = s.head := rfl
@[simp] theorem mapEntry_web (no : Nat) (f : Entry → Entry) : (s.mapEntry no f).web = s.web := rfl
@[simp] theorem mapEntry_chest (no : Nat) (f : Entry → Entry) : (s.mapEntry no f).chest = s.chest := rfl
@[simp] theorem mapEntry_line (no : Nat) (f : Entry → Entry) : (s.mapEntry no f).line = s.line := rfl
@[simp] theorem mapEntry_turret (no : Nat) (f : Entry → Entry) : (s.mapEntry no f).turret = s.turret := rfl
@[simp] theorem mapEntry_pending (no : Nat) (f : Entry → Entry) : (s.mapEntry no f).pending = s.pending := rfl

/-! `mapSlot` -/

@[simp] theorem mapSlot_mem (n : Nat) (f : Slot → Slot) : (s.mapSlot n f).mem = s.mem := rfl
@[simp] theorem mapSlot_bus (n : Nat) (f : Slot → Slot) : (s.mapSlot n f).bus = s.bus := rfl
@[simp] theorem mapSlot_port (n : Nat) (f : Slot → Slot) : (s.mapSlot n f).port = s.port := rfl
@[simp] theorem mapSlot_orders (n : Nat) (f : Slot → Slot) : (s.mapSlot n f).orders = s.orders := rfl
@[simp] theorem mapSlot_head (n : Nat) (f : Slot → Slot) : (s.mapSlot n f).head = s.head := rfl
@[simp] theorem mapSlot_web (n : Nat) (f : Slot → Slot) : (s.mapSlot n f).web = s.web := rfl
@[simp] theorem mapSlot_chest (n : Nat) (f : Slot → Slot) : (s.mapSlot n f).chest = s.chest := rfl
@[simp] theorem mapSlot_line (n : Nat) (f : Slot → Slot) : (s.mapSlot n f).line = s.line := rfl
@[simp] theorem mapSlot_turret (n : Nat) (f : Slot → Slot) : (s.mapSlot n f).turret = s.turret := rfl
@[simp] theorem mapSlot_pending (n : Nat) (f : Slot → Slot) : (s.mapSlot n f).pending = s.pending := rfl

/-! `mapOrder` -/

@[simp] theorem mapOrder_mem (t : Nat) (f : Order → Order) : (s.mapOrder t f).mem = s.mem := rfl
@[simp] theorem mapOrder_bus (t : Nat) (f : Order → Order) : (s.mapOrder t f).bus = s.bus := rfl
@[simp] theorem mapOrder_port (t : Nat) (f : Order → Order) : (s.mapOrder t f).port = s.port := rfl
@[simp] theorem mapOrder_lib (t : Nat) (f : Order → Order) : (s.mapOrder t f).lib = s.lib := rfl
@[simp] theorem mapOrder_head (t : Nat) (f : Order → Order) : (s.mapOrder t f).head = s.head := rfl
@[simp] theorem mapOrder_web (t : Nat) (f : Order → Order) : (s.mapOrder t f).web = s.web := rfl
@[simp] theorem mapOrder_chest (t : Nat) (f : Order → Order) : (s.mapOrder t f).chest = s.chest := rfl
@[simp] theorem mapOrder_line (t : Nat) (f : Order → Order) : (s.mapOrder t f).line = s.line := rfl
@[simp] theorem mapOrder_turret (t : Nat) (f : Order → Order) : (s.mapOrder t f).turret = s.turret := rfl
@[simp] theorem mapOrder_pending (t : Nat) (f : Order → Order) : (s.mapOrder t f).pending = s.pending := rfl

/-! `mapRoll` -/

@[simp] theorem mapRoll_mem (t : Nat) (f : Roll → Roll) : (s.mapRoll t f).mem = s.mem := rfl
@[simp] theorem mapRoll_bus (t : Nat) (f : Roll → Roll) : (s.mapRoll t f).bus = s.bus := rfl
@[simp] theorem mapRoll_port (t : Nat) (f : Roll → Roll) : (s.mapRoll t f).port = s.port := rfl
@[simp] theorem mapRoll_lib (t : Nat) (f : Roll → Roll) : (s.mapRoll t f).lib = s.lib := rfl
@[simp] theorem mapRoll_orders (t : Nat) (f : Roll → Roll) : (s.mapRoll t f).orders = s.orders := rfl
@[simp] theorem mapRoll_head (t : Nat) (f : Roll → Roll) : (s.mapRoll t f).head = s.head := rfl
@[simp] theorem mapRoll_web (t : Nat) (f : Roll → Roll) : (s.mapRoll t f).web = s.web := rfl
@[simp] theorem mapRoll_chest (t : Nat) (f : Roll → Roll) : (s.mapRoll t f).chest = s.chest := rfl
@[simp] theorem mapRoll_line (t : Nat) (f : Roll → Roll) : (s.mapRoll t f).line = s.line := rfl
@[simp] theorem mapRoll_pending (t : Nat) (f : Roll → Roll) : (s.mapRoll t f).pending = s.pending := rfl

/-! `mapPanel` -/

@[simp] theorem mapPanel_mem (i : Nat) (f : Panel → Panel) : (s.mapPanel i f).mem = s.mem := rfl
@[simp] theorem mapPanel_bus (i : Nat) (f : Panel → Panel) : (s.mapPanel i f).bus = s.bus := rfl
@[simp] theorem mapPanel_port (i : Nat) (f : Panel → Panel) : (s.mapPanel i f).port = s.port := rfl
@[simp] theorem mapPanel_lib (i : Nat) (f : Panel → Panel) : (s.mapPanel i f).lib = s.lib := rfl
@[simp] theorem mapPanel_orders (i : Nat) (f : Panel → Panel) : (s.mapPanel i f).orders = s.orders := rfl
@[simp] theorem mapPanel_head (i : Nat) (f : Panel → Panel) : (s.mapPanel i f).head = s.head := rfl
@[simp] theorem mapPanel_chest (i : Nat) (f : Panel → Panel) : (s.mapPanel i f).chest = s.chest := rfl
@[simp] theorem mapPanel_line (i : Nat) (f : Panel → Panel) : (s.mapPanel i f).line = s.line := rfl
@[simp] theorem mapPanel_turret (i : Nat) (f : Panel → Panel) : (s.mapPanel i f).turret = s.turret := rfl
@[simp] theorem mapPanel_pending (i : Nat) (f : Panel → Panel) : (s.mapPanel i f).pending = s.pending := rfl

/-! `mapZone` -/

@[simp] theorem mapZone_mem (z : ZoneId) (f : Zone → Zone) : (s.mapZone z f).mem = s.mem := rfl
@[simp] theorem mapZone_bus (z : ZoneId) (f : Zone → Zone) : (s.mapZone z f).bus = s.bus := rfl
@[simp] theorem mapZone_port (z : ZoneId) (f : Zone → Zone) : (s.mapZone z f).port = s.port := rfl
@[simp] theorem mapZone_lib (z : ZoneId) (f : Zone → Zone) : (s.mapZone z f).lib = s.lib := rfl
@[simp] theorem mapZone_orders (z : ZoneId) (f : Zone → Zone) : (s.mapZone z f).orders = s.orders := rfl
@[simp] theorem mapZone_head (z : ZoneId) (f : Zone → Zone) : (s.mapZone z f).head = s.head := rfl
@[simp] theorem mapZone_web (z : ZoneId) (f : Zone → Zone) : (s.mapZone z f).web = s.web := rfl
@[simp] theorem mapZone_line (z : ZoneId) (f : Zone → Zone) : (s.mapZone z f).line = s.line := rfl
@[simp] theorem mapZone_turret (z : ZoneId) (f : Zone → Zone) : (s.mapZone z f).turret = s.turret := rfl
@[simp] theorem mapZone_pending (z : ZoneId) (f : Zone → Zone) : (s.mapZone z f).pending = s.pending := rfl

/-! `setStage` -/

@[simp] theorem setStage_mem (no : Nat) (st : Stage) : (setStage no st s).mem = s.mem := rfl
@[simp] theorem setStage_bus (no : Nat) (st : Stage) : (setStage no st s).bus = s.bus := rfl
@[simp] theorem setStage_lib (no : Nat) (st : Stage) : (setStage no st s).lib = s.lib := rfl
@[simp] theorem setStage_orders (no : Nat) (st : Stage) : (setStage no st s).orders = s.orders := rfl
@[simp] theorem setStage_head (no : Nat) (st : Stage) : (setStage no st s).head = s.head := rfl
@[simp] theorem setStage_web (no : Nat) (st : Stage) : (setStage no st s).web = s.web := rfl
@[simp] theorem setStage_chest (no : Nat) (st : Stage) : (setStage no st s).chest = s.chest := rfl
@[simp] theorem setStage_line (no : Nat) (st : Stage) : (setStage no st s).line = s.line := rfl
@[simp] theorem setStage_turret (no : Nat) (st : Stage) : (setStage no st s).turret = s.turret := rfl
@[simp] theorem setStage_pending (no : Nat) (st : Stage) : (setStage no st s).pending = s.pending := rfl

/-! `setReq` -/

@[simp] theorem setReq_mem (no : Nat) (q : Req) (c : Call) : (setReq no q c s).mem = s.mem := rfl
@[simp] theorem setReq_bus (no : Nat) (q : Req) (c : Call) : (setReq no q c s).bus = s.bus := rfl
@[simp] theorem setReq_lib (no : Nat) (q : Req) (c : Call) : (setReq no q c s).lib = s.lib := rfl
@[simp] theorem setReq_orders (no : Nat) (q : Req) (c : Call) : (setReq no q c s).orders = s.orders := rfl
@[simp] theorem setReq_head (no : Nat) (q : Req) (c : Call) : (setReq no q c s).head = s.head := rfl
@[simp] theorem setReq_web (no : Nat) (q : Req) (c : Call) : (setReq no q c s).web = s.web := rfl
@[simp] theorem setReq_chest (no : Nat) (q : Req) (c : Call) : (setReq no q c s).chest = s.chest := rfl
@[simp] theorem setReq_line (no : Nat) (q : Req) (c : Call) : (setReq no q c s).line = s.line := rfl
@[simp] theorem setReq_turret (no : Nat) (q : Req) (c : Call) : (setReq no q c s).turret = s.turret := rfl
@[simp] theorem setReq_pending (no : Nat) (q : Req) (c : Call) : (setReq no q c s).pending = s.pending := rfl

/-! `freeEntry` -/

@[simp] theorem freeEntry_mem (no : Nat) : (freeEntry no s).mem = s.mem := rfl
@[simp] theorem freeEntry_bus (no : Nat) : (freeEntry no s).bus = s.bus := rfl
@[simp] theorem freeEntry_lib (no : Nat) : (freeEntry no s).lib = s.lib := rfl
@[simp] theorem freeEntry_orders (no : Nat) : (freeEntry no s).orders = s.orders := rfl
@[simp] theorem freeEntry_head (no : Nat) : (freeEntry no s).head = s.head := rfl
@[simp] theorem freeEntry_web (no : Nat) : (freeEntry no s).web = s.web := rfl
@[simp] theorem freeEntry_chest (no : Nat) : (freeEntry no s).chest = s.chest := rfl
@[simp] theorem freeEntry_line (no : Nat) : (freeEntry no s).line = s.line := rfl
@[simp] theorem freeEntry_turret (no : Nat) : (freeEntry no s).turret = s.turret := rfl
@[simp] theorem freeEntry_pending (no : Nat) : (freeEntry no s).pending = s.pending := rfl

/-! `enterEntry` -/

@[simp] theorem enterEntry_mem (b : Nat) (a : Bool) : (enterEntry b a s).mem = s.mem := rfl
@[simp] theorem enterEntry_bus (b : Nat) (a : Bool) : (enterEntry b a s).bus = s.bus := rfl
@[simp] theorem enterEntry_lib (b : Nat) (a : Bool) : (enterEntry b a s).lib = s.lib := rfl
@[simp] theorem enterEntry_orders (b : Nat) (a : Bool) : (enterEntry b a s).orders = s.orders := rfl
@[simp] theorem enterEntry_head (b : Nat) (a : Bool) : (enterEntry b a s).head = s.head := rfl
@[simp] theorem enterEntry_web (b : Nat) (a : Bool) : (enterEntry b a s).web = s.web := rfl
@[simp] theorem enterEntry_chest (b : Nat) (a : Bool) : (enterEntry b a s).chest = s.chest := rfl
@[simp] theorem enterEntry_line (b : Nat) (a : Bool) : (enterEntry b a s).line = s.line := rfl
@[simp] theorem enterEntry_turret (b : Nat) (a : Bool) : (enterEntry b a s).turret = s.turret := rfl
@[simp] theorem enterEntry_pending (b : Nat) (a : Bool) : (enterEntry b a s).pending = s.pending := rfl

/-! `tick` -/

@[simp] theorem tick_mem (n : Nat) : (tick n s).mem = s.mem := rfl
@[simp] theorem tick_bus (n : Nat) : (tick n s).bus = s.bus := rfl
@[simp] theorem tick_port (n : Nat) : (tick n s).port = s.port := rfl
@[simp] theorem tick_lib (n : Nat) : (tick n s).lib = s.lib := rfl
@[simp] theorem tick_orders (n : Nat) : (tick n s).orders = s.orders := rfl
@[simp] theorem tick_head (n : Nat) : (tick n s).head = s.head := rfl
@[simp] theorem tick_web (n : Nat) : (tick n s).web = s.web := rfl
@[simp] theorem tick_chest (n : Nat) : (tick n s).chest = s.chest := rfl
@[simp] theorem tick_turret (n : Nat) : (tick n s).turret = s.turret := rfl
@[simp] theorem tick_pending (n : Nat) : (tick n s).pending = s.pending := rfl

/-! `headAgain` -/

@[simp] theorem headAgain_mem : (headAgain s).mem = s.mem := rfl
@[simp] theorem headAgain_bus : (headAgain s).bus = s.bus := rfl
@[simp] theorem headAgain_port : (headAgain s).port = s.port := rfl
@[simp] theorem headAgain_lib : (headAgain s).lib = s.lib := rfl
@[simp] theorem headAgain_orders : (headAgain s).orders = s.orders := rfl
@[simp] theorem headAgain_web : (headAgain s).web = s.web := rfl
@[simp] theorem headAgain_chest : (headAgain s).chest = s.chest := rfl
@[simp] theorem headAgain_line : (headAgain s).line = s.line := rfl
@[simp] theorem headAgain_turret : (headAgain s).turret = s.turret := rfl
@[simp] theorem headAgain_pending : (headAgain s).pending = s.pending := rfl

/-! `withdraw` -/

@[simp] theorem withdraw_mem : (withdraw s).mem = s.mem := rfl
@[simp] theorem withdraw_bus : (withdraw s).bus = s.bus := rfl
@[simp] theorem withdraw_port : (withdraw s).port = s.port := rfl
@[simp] theorem withdraw_lib : (withdraw s).lib = s.lib := rfl
@[simp] theorem withdraw_orders : (withdraw s).orders = s.orders := rfl
@[simp] theorem withdraw_web : (withdraw s).web = s.web := rfl
@[simp] theorem withdraw_chest : (withdraw s).chest = s.chest := rfl
@[simp] theorem withdraw_turret : (withdraw s).turret = s.turret := rfl
@[simp] theorem withdraw_pending : (withdraw s).pending = s.pending := rfl

/-! `judgeHead` -/

@[simp] theorem judgeHead_mem : (judgeHead s).mem = s.mem := rfl
@[simp] theorem judgeHead_bus : (judgeHead s).bus = s.bus := rfl
@[simp] theorem judgeHead_port : (judgeHead s).port = s.port := rfl
@[simp] theorem judgeHead_lib : (judgeHead s).lib = s.lib := rfl
@[simp] theorem judgeHead_orders : (judgeHead s).orders = s.orders := rfl
@[simp] theorem judgeHead_web : (judgeHead s).web = s.web := rfl
@[simp] theorem judgeHead_chest : (judgeHead s).chest = s.chest := rfl
@[simp] theorem judgeHead_line : (judgeHead s).line = s.line := rfl
@[simp] theorem judgeHead_turret : (judgeHead s).turret = s.turret := rfl
@[simp] theorem judgeHead_pending : (judgeHead s).pending = s.pending := rfl

/-! `judgeUnwind` -/

@[simp] theorem judgeUnwind_mem : (judgeUnwind s).mem = s.mem := rfl
@[simp] theorem judgeUnwind_bus : (judgeUnwind s).bus = s.bus := rfl
@[simp] theorem judgeUnwind_port : (judgeUnwind s).port = s.port := rfl
@[simp] theorem judgeUnwind_lib : (judgeUnwind s).lib = s.lib := rfl
@[simp] theorem judgeUnwind_orders : (judgeUnwind s).orders = s.orders := rfl
@[simp] theorem judgeUnwind_head : (judgeUnwind s).head = s.head := rfl
@[simp] theorem judgeUnwind_web : (judgeUnwind s).web = s.web := rfl
@[simp] theorem judgeUnwind_chest : (judgeUnwind s).chest = s.chest := rfl
@[simp] theorem judgeUnwind_turret : (judgeUnwind s).turret = s.turret := rfl
@[simp] theorem judgeUnwind_pending : (judgeUnwind s).pending = s.pending := rfl

/-! `judgeLatch` -/

@[simp] theorem judgeLatch_mem : (judgeLatch s).mem = s.mem := rfl
@[simp] theorem judgeLatch_bus : (judgeLatch s).bus = s.bus := rfl
@[simp] theorem judgeLatch_port : (judgeLatch s).port = s.port := rfl
@[simp] theorem judgeLatch_lib : (judgeLatch s).lib = s.lib := rfl
@[simp] theorem judgeLatch_orders : (judgeLatch s).orders = s.orders := rfl
@[simp] theorem judgeLatch_head : (judgeLatch s).head = s.head := rfl
@[simp] theorem judgeLatch_web : (judgeLatch s).web = s.web := rfl
@[simp] theorem judgeLatch_chest : (judgeLatch s).chest = s.chest := rfl
@[simp] theorem judgeLatch_turret : (judgeLatch s).turret = s.turret := rfl
@[simp] theorem judgeLatch_pending : (judgeLatch s).pending = s.pending := rfl

/-! `driveSpeed` -/

@[simp] theorem driveSpeed_mem : (driveSpeed s).mem = s.mem := rfl
@[simp] theorem driveSpeed_bus : (driveSpeed s).bus = s.bus := rfl
@[simp] theorem driveSpeed_port : (driveSpeed s).port = s.port := rfl
@[simp] theorem driveSpeed_lib : (driveSpeed s).lib = s.lib := rfl
@[simp] theorem driveSpeed_orders : (driveSpeed s).orders = s.orders := rfl
@[simp] theorem driveSpeed_head : (driveSpeed s).head = s.head := rfl
@[simp] theorem driveSpeed_web : (driveSpeed s).web = s.web := rfl
@[simp] theorem driveSpeed_chest : (driveSpeed s).chest = s.chest := rfl
@[simp] theorem driveSpeed_turret : (driveSpeed s).turret = s.turret := rfl
@[simp] theorem driveSpeed_pending : (driveSpeed s).pending = s.pending := rfl

/-! `recomputeSpeed` -/

@[simp] theorem recomputeSpeed_mem : (recomputeSpeed s).mem = s.mem := rfl
@[simp] theorem recomputeSpeed_bus : (recomputeSpeed s).bus = s.bus := rfl
@[simp] theorem recomputeSpeed_port : (recomputeSpeed s).port = s.port := rfl
@[simp] theorem recomputeSpeed_lib : (recomputeSpeed s).lib = s.lib := rfl
@[simp] theorem recomputeSpeed_orders : (recomputeSpeed s).orders = s.orders := rfl
@[simp] theorem recomputeSpeed_head : (recomputeSpeed s).head = s.head := rfl
@[simp] theorem recomputeSpeed_web : (recomputeSpeed s).web = s.web := rfl
@[simp] theorem recomputeSpeed_chest : (recomputeSpeed s).chest = s.chest := rfl
@[simp] theorem recomputeSpeed_turret : (recomputeSpeed s).turret = s.turret := rfl
@[simp] theorem recomputeSpeed_pending : (recomputeSpeed s).pending = s.pending := rfl

/-! `judgePoint` -/

@[simp] theorem judgePoint_mem : (judgePoint s).mem = s.mem := rfl
@[simp] theorem judgePoint_bus : (judgePoint s).bus = s.bus := rfl
@[simp] theorem judgePoint_port : (judgePoint s).port = s.port := rfl
@[simp] theorem judgePoint_lib : (judgePoint s).lib = s.lib := rfl
@[simp] theorem judgePoint_orders : (judgePoint s).orders = s.orders := rfl
@[simp] theorem judgePoint_head : (judgePoint s).head = s.head := rfl
@[simp] theorem judgePoint_web : (judgePoint s).web = s.web := rfl
@[simp] theorem judgePoint_chest : (judgePoint s).chest = s.chest := rfl
@[simp] theorem judgePoint_line : (judgePoint s).line = s.line := rfl
@[simp] theorem judgePoint_pending : (judgePoint s).pending = s.pending := rfl

/-! `misalign` -/

@[simp] theorem misalign_mem : (misalign s).mem = s.mem := rfl
@[simp] theorem misalign_bus : (misalign s).bus = s.bus := rfl
@[simp] theorem misalign_port : (misalign s).port = s.port := rfl
@[simp] theorem misalign_lib : (misalign s).lib = s.lib := rfl
@[simp] theorem misalign_orders : (misalign s).orders = s.orders := rfl
@[simp] theorem misalign_web : (misalign s).web = s.web := rfl
@[simp] theorem misalign_chest : (misalign s).chest = s.chest := rfl
@[simp] theorem misalign_line : (misalign s).line = s.line := rfl
@[simp] theorem misalign_turret : (misalign s).turret = s.turret := rfl
@[simp] theorem misalign_pending : (misalign s).pending = s.pending := rfl

/-! `emptyCells` -/

@[simp] theorem emptyCells_mem : (emptyCells s).mem = s.mem := rfl
@[simp] theorem emptyCells_bus : (emptyCells s).bus = s.bus := rfl
@[simp] theorem emptyCells_port : (emptyCells s).port = s.port := rfl
@[simp] theorem emptyCells_lib : (emptyCells s).lib = s.lib := rfl
@[simp] theorem emptyCells_orders : (emptyCells s).orders = s.orders := rfl
@[simp] theorem emptyCells_head : (emptyCells s).head = s.head := rfl
@[simp] theorem emptyCells_web : (emptyCells s).web = s.web := rfl
@[simp] theorem emptyCells_line : (emptyCells s).line = s.line := rfl
@[simp] theorem emptyCells_turret : (emptyCells s).turret = s.turret := rfl
@[simp] theorem emptyCells_pending : (emptyCells s).pending = s.pending := rfl

/-! `addCause` -/

@[simp] theorem addCause_mem (c : HaltCause) : (addCause c s).mem = s.mem := rfl
@[simp] theorem addCause_bus (c : HaltCause) : (addCause c s).bus = s.bus := rfl
@[simp] theorem addCause_port (c : HaltCause) : (addCause c s).port = s.port := rfl
@[simp] theorem addCause_lib (c : HaltCause) : (addCause c s).lib = s.lib := rfl
@[simp] theorem addCause_orders (c : HaltCause) : (addCause c s).orders = s.orders := rfl
@[simp] theorem addCause_head (c : HaltCause) : (addCause c s).head = s.head := rfl
@[simp] theorem addCause_web (c : HaltCause) : (addCause c s).web = s.web := rfl
@[simp] theorem addCause_chest (c : HaltCause) : (addCause c s).chest = s.chest := rfl
@[simp] theorem addCause_turret (c : HaltCause) : (addCause c s).turret = s.turret := rfl
@[simp] theorem addCause_pending (c : HaltCause) : (addCause c s).pending = s.pending := rfl

/-! `removeRoll` -/

@[simp] theorem removeRoll_mem (t : Nat) : (removeRoll t s).mem = s.mem := rfl
@[simp] theorem removeRoll_bus (t : Nat) : (removeRoll t s).bus = s.bus := rfl
@[simp] theorem removeRoll_port (t : Nat) : (removeRoll t s).port = s.port := rfl
@[simp] theorem removeRoll_lib (t : Nat) : (removeRoll t s).lib = s.lib := rfl
@[simp] theorem removeRoll_orders (t : Nat) : (removeRoll t s).orders = s.orders := rfl
@[simp] theorem removeRoll_head (t : Nat) : (removeRoll t s).head = s.head := rfl
@[simp] theorem removeRoll_web (t : Nat) : (removeRoll t s).web = s.web := rfl
@[simp] theorem removeRoll_chest (t : Nat) : (removeRoll t s).chest = s.chest := rfl
@[simp] theorem removeRoll_line (t : Nat) : (removeRoll t s).line = s.line := rfl
@[simp] theorem removeRoll_pending (t : Nat) : (removeRoll t s).pending = s.pending := rfl

/-! `dropMarks` -/

@[simp] theorem dropMarks_mem : (dropMarks s).mem = s.mem := rfl
@[simp] theorem dropMarks_bus : (dropMarks s).bus = s.bus := rfl
@[simp] theorem dropMarks_port : (dropMarks s).port = s.port := rfl
@[simp] theorem dropMarks_lib : (dropMarks s).lib = s.lib := rfl
@[simp] theorem dropMarks_orders : (dropMarks s).orders = s.orders := rfl
@[simp] theorem dropMarks_web : (dropMarks s).web = s.web := rfl
@[simp] theorem dropMarks_chest : (dropMarks s).chest = s.chest := rfl
@[simp] theorem dropMarks_line : (dropMarks s).line = s.line := rfl
@[simp] theorem dropMarks_turret : (dropMarks s).turret = s.turret := rfl
@[simp] theorem dropMarks_pending : (dropMarks s).pending = s.pending := rfl

/-! `arrive` -/

@[simp] theorem arrive_port (e : Env) : (arrive e s).port = s.port := rfl
@[simp] theorem arrive_lib (e : Env) : (arrive e s).lib = s.lib := rfl
@[simp] theorem arrive_orders (e : Env) : (arrive e s).orders = s.orders := rfl
@[simp] theorem arrive_head (e : Env) : (arrive e s).head = s.head := rfl
@[simp] theorem arrive_web (e : Env) : (arrive e s).web = s.web := rfl
@[simp] theorem arrive_chest (e : Env) : (arrive e s).chest = s.chest := rfl
@[simp] theorem arrive_turret (e : Env) : (arrive e s).turret = s.turret := rfl
@[simp] theorem arrive_pending (e : Env) : (arrive e s).pending = s.pending := rfl

/-! The fields that `withdraw`, `judgeHead`, `headAgain` and the line's outputs leave within their record. -/

@[simp] theorem judgeUnwind_line_state : (judgeUnwind s).line.state = s.line.state := rfl
@[simp] theorem judgeUnwind_line_holds : (judgeUnwind s).line.holds = s.line.holds := rfl
@[simp] theorem judgeUnwind_line_cause : (judgeUnwind s).line.cause = s.line.cause := rfl
@[simp] theorem judgeUnwind_line_halts : (judgeUnwind s).line.halts = s.line.halts := rfl
@[simp] theorem judgeUnwind_line_range : (judgeUnwind s).line.range = s.line.range := rfl
@[simp] theorem judgeUnwind_line_commanded : (judgeUnwind s).line.commanded = s.line.commanded := rfl
@[simp] theorem judgeUnwind_line_limit : (judgeUnwind s).line.limit = s.line.limit := rfl
@[simp] theorem judgeUnwind_line_ceiling : (judgeUnwind s).line.ceiling = s.line.ceiling := rfl
@[simp] theorem judgeUnwind_line_limiting : (judgeUnwind s).line.limiting = s.line.limiting := rfl
@[simp] theorem judgeUnwind_line_zonesReady : (judgeUnwind s).line.zonesReady = s.line.zonesReady := rfl
@[simp] theorem judgeUnwind_line_effective : (judgeUnwind s).line.effective = s.line.effective := rfl
@[simp] theorem judgeUnwind_line_speedRef : (judgeUnwind s).line.speedRef = s.line.speedRef := rfl
@[simp] theorem judgeUnwind_line_store : (judgeUnwind s).line.store = s.line.store := rfl
@[simp] theorem judgeUnwind_line_latchShut : (judgeUnwind s).line.latchShut = s.line.latchShut := rfl
@[simp] theorem judgeUnwind_line_starved : (judgeUnwind s).line.starved = s.line.starved := rfl
@[simp] theorem judgeUnwind_line_stall : (judgeUnwind s).line.stall = s.line.stall := rfl
@[simp] theorem judgeUnwind_line_deadline : (judgeUnwind s).line.deadline = s.line.deadline := rfl
@[simp] theorem judgeUnwind_line_stopWatches : (judgeUnwind s).line.stopWatches = s.line.stopWatches := rfl
@[simp] theorem judgeUnwind_line_startWatch : (judgeUnwind s).line.startWatch = s.line.startWatch := rfl
@[simp] theorem judgeUnwind_line_consts : (judgeUnwind s).line.consts = s.line.consts := rfl
@[simp] theorem judgeUnwind_line_clock : (judgeUnwind s).line.clock = s.line.clock := rfl
@[simp] theorem judgeUnwind_line_estop : (judgeUnwind s).line.estop = s.line.estop := rfl
@[simp] theorem judgeUnwind_line_drive : (judgeUnwind s).line.drive = s.line.drive := rfl

@[simp] theorem driveSpeed_line_state : (driveSpeed s).line.state = s.line.state := rfl
@[simp] theorem driveSpeed_line_holds : (driveSpeed s).line.holds = s.line.holds := rfl
@[simp] theorem driveSpeed_line_cause : (driveSpeed s).line.cause = s.line.cause := rfl
@[simp] theorem driveSpeed_line_halts : (driveSpeed s).line.halts = s.line.halts := rfl
@[simp] theorem driveSpeed_line_range : (driveSpeed s).line.range = s.line.range := rfl
@[simp] theorem driveSpeed_line_commanded : (driveSpeed s).line.commanded = s.line.commanded := rfl
@[simp] theorem driveSpeed_line_limit : (driveSpeed s).line.limit = s.line.limit := rfl
@[simp] theorem driveSpeed_line_ceiling : (driveSpeed s).line.ceiling = s.line.ceiling := rfl
@[simp] theorem driveSpeed_line_limiting : (driveSpeed s).line.limiting = s.line.limiting := rfl
@[simp] theorem driveSpeed_line_zonesReady : (driveSpeed s).line.zonesReady = s.line.zonesReady := rfl
@[simp] theorem driveSpeed_line_effective : (driveSpeed s).line.effective = s.line.effective := rfl
@[simp] theorem driveSpeed_line_store : (driveSpeed s).line.store = s.line.store := rfl
@[simp] theorem driveSpeed_line_latchShut : (driveSpeed s).line.latchShut = s.line.latchShut := rfl
@[simp] theorem driveSpeed_line_unwind : (driveSpeed s).line.unwind = s.line.unwind := rfl
@[simp] theorem driveSpeed_line_starved : (driveSpeed s).line.starved = s.line.starved := rfl
@[simp] theorem driveSpeed_line_stall : (driveSpeed s).line.stall = s.line.stall := rfl
@[simp] theorem driveSpeed_line_deadline : (driveSpeed s).line.deadline = s.line.deadline := rfl
@[simp] theorem driveSpeed_line_stopWatches : (driveSpeed s).line.stopWatches = s.line.stopWatches := rfl
@[simp] theorem driveSpeed_line_startWatch : (driveSpeed s).line.startWatch = s.line.startWatch := rfl
@[simp] theorem driveSpeed_line_consts : (driveSpeed s).line.consts = s.line.consts := rfl
@[simp] theorem driveSpeed_line_clock : (driveSpeed s).line.clock = s.line.clock := rfl
@[simp] theorem driveSpeed_line_estop : (driveSpeed s).line.estop = s.line.estop := rfl
@[simp] theorem driveSpeed_line_drive : (driveSpeed s).line.drive = s.line.drive := rfl

@[simp] theorem withdraw_line_state : (withdraw s).line.state = s.line.state := rfl
@[simp] theorem withdraw_line_holds : (withdraw s).line.holds = s.line.holds := rfl
@[simp] theorem withdraw_line_cause : (withdraw s).line.cause = s.line.cause := rfl
@[simp] theorem withdraw_line_halts : (withdraw s).line.halts = s.line.halts := rfl
@[simp] theorem withdraw_line_range : (withdraw s).line.range = s.line.range := rfl
@[simp] theorem withdraw_line_commanded : (withdraw s).line.commanded = s.line.commanded := rfl
@[simp] theorem withdraw_line_limit : (withdraw s).line.limit = s.line.limit := rfl
@[simp] theorem withdraw_line_ceiling : (withdraw s).line.ceiling = s.line.ceiling := rfl
@[simp] theorem withdraw_line_limiting : (withdraw s).line.limiting = s.line.limiting := rfl
@[simp] theorem withdraw_line_zonesReady : (withdraw s).line.zonesReady = s.line.zonesReady := rfl
@[simp] theorem withdraw_line_effective : (withdraw s).line.effective = s.line.effective := rfl
@[simp] theorem withdraw_line_speedRef : (withdraw s).line.speedRef = s.line.speedRef := rfl
@[simp] theorem withdraw_line_store : (withdraw s).line.store = s.line.store := rfl
@[simp] theorem withdraw_line_latchShut : (withdraw s).line.latchShut = s.line.latchShut := rfl
@[simp] theorem withdraw_line_unwind : (withdraw s).line.unwind = s.line.unwind := rfl
@[simp] theorem withdraw_line_deadline : (withdraw s).line.deadline = s.line.deadline := rfl
@[simp] theorem withdraw_line_stopWatches : (withdraw s).line.stopWatches = s.line.stopWatches := rfl
@[simp] theorem withdraw_line_startWatch : (withdraw s).line.startWatch = s.line.startWatch := rfl
@[simp] theorem withdraw_line_consts : (withdraw s).line.consts = s.line.consts := rfl
@[simp] theorem withdraw_line_clock : (withdraw s).line.clock = s.line.clock := rfl
@[simp] theorem withdraw_line_estop : (withdraw s).line.estop = s.line.estop := rfl
@[simp] theorem withdraw_line_drive : (withdraw s).line.drive = s.line.drive := rfl

@[simp] theorem recomputeSpeed_line_state : (recomputeSpeed s).line.state = s.line.state := rfl
@[simp] theorem recomputeSpeed_line_holds : (recomputeSpeed s).line.holds = s.line.holds := rfl
@[simp] theorem recomputeSpeed_line_cause : (recomputeSpeed s).line.cause = s.line.cause := rfl
@[simp] theorem recomputeSpeed_line_halts : (recomputeSpeed s).line.halts = s.line.halts := rfl
@[simp] theorem recomputeSpeed_line_range : (recomputeSpeed s).line.range = s.line.range := rfl
@[simp] theorem recomputeSpeed_line_commanded : (recomputeSpeed s).line.commanded = s.line.commanded := rfl
@[simp] theorem recomputeSpeed_line_limit : (recomputeSpeed s).line.limit = s.line.limit := rfl
@[simp] theorem recomputeSpeed_line_ceiling : (recomputeSpeed s).line.ceiling = s.line.ceiling := rfl
@[simp] theorem recomputeSpeed_line_limiting : (recomputeSpeed s).line.limiting = s.line.limiting := rfl
@[simp] theorem recomputeSpeed_line_zonesReady : (recomputeSpeed s).line.zonesReady = s.line.zonesReady := rfl
@[simp] theorem recomputeSpeed_line_store : (recomputeSpeed s).line.store = s.line.store := rfl
@[simp] theorem recomputeSpeed_line_latchShut : (recomputeSpeed s).line.latchShut = s.line.latchShut := rfl
@[simp] theorem recomputeSpeed_line_unwind : (recomputeSpeed s).line.unwind = s.line.unwind := rfl
@[simp] theorem recomputeSpeed_line_starved : (recomputeSpeed s).line.starved = s.line.starved := rfl
@[simp] theorem recomputeSpeed_line_stall : (recomputeSpeed s).line.stall = s.line.stall := rfl
@[simp] theorem recomputeSpeed_line_deadline : (recomputeSpeed s).line.deadline = s.line.deadline := rfl
@[simp] theorem recomputeSpeed_line_stopWatches : (recomputeSpeed s).line.stopWatches = s.line.stopWatches := rfl
@[simp] theorem recomputeSpeed_line_startWatch : (recomputeSpeed s).line.startWatch = s.line.startWatch := rfl
@[simp] theorem recomputeSpeed_line_consts : (recomputeSpeed s).line.consts = s.line.consts := rfl
@[simp] theorem recomputeSpeed_line_clock : (recomputeSpeed s).line.clock = s.line.clock := rfl
@[simp] theorem recomputeSpeed_line_estop : (recomputeSpeed s).line.estop = s.line.estop := rfl
@[simp] theorem recomputeSpeed_line_drive : (recomputeSpeed s).line.drive = s.line.drive := rfl

@[simp] theorem judgeLatch_line_state : (judgeLatch s).line.state = s.line.state := rfl
@[simp] theorem judgeLatch_line_holds : (judgeLatch s).line.holds = s.line.holds := rfl
@[simp] theorem judgeLatch_line_cause : (judgeLatch s).line.cause = s.line.cause := rfl
@[simp] theorem judgeLatch_line_halts : (judgeLatch s).line.halts = s.line.halts := rfl
@[simp] theorem judgeLatch_line_range : (judgeLatch s).line.range = s.line.range := rfl
@[simp] theorem judgeLatch_line_commanded : (judgeLatch s).line.commanded = s.line.commanded := rfl
@[simp] theorem judgeLatch_line_limit : (judgeLatch s).line.limit = s.line.limit := rfl
@[simp] theorem judgeLatch_line_ceiling : (judgeLatch s).line.ceiling = s.line.ceiling := rfl
@[simp] theorem judgeLatch_line_limiting : (judgeLatch s).line.limiting = s.line.limiting := rfl
@[simp] theorem judgeLatch_line_zonesReady : (judgeLatch s).line.zonesReady = s.line.zonesReady := rfl
@[simp] theorem judgeLatch_line_effective : (judgeLatch s).line.effective = s.line.effective := rfl
@[simp] theorem judgeLatch_line_speedRef : (judgeLatch s).line.speedRef = s.line.speedRef := rfl
@[simp] theorem judgeLatch_line_store : (judgeLatch s).line.store = s.line.store := rfl
@[simp] theorem judgeLatch_line_starved : (judgeLatch s).line.starved = s.line.starved := rfl
@[simp] theorem judgeLatch_line_stall : (judgeLatch s).line.stall = s.line.stall := rfl
@[simp] theorem judgeLatch_line_deadline : (judgeLatch s).line.deadline = s.line.deadline := rfl
@[simp] theorem judgeLatch_line_stopWatches : (judgeLatch s).line.stopWatches = s.line.stopWatches := rfl
@[simp] theorem judgeLatch_line_startWatch : (judgeLatch s).line.startWatch = s.line.startWatch := rfl
@[simp] theorem judgeLatch_line_consts : (judgeLatch s).line.consts = s.line.consts := rfl
@[simp] theorem judgeLatch_line_clock : (judgeLatch s).line.clock = s.line.clock := rfl
@[simp] theorem judgeLatch_line_estop : (judgeLatch s).line.estop = s.line.estop := rfl
@[simp] theorem judgeLatch_line_drive : (judgeLatch s).line.drive = s.line.drive := rfl

@[simp] theorem judgeHead_head_f : (judgeHead s).head.f = s.head.f := rfl
@[simp] theorem judgeHead_head_o : (judgeHead s).head.o = s.head.o := rfl
@[simp] theorem judgeHead_head_bound : (judgeHead s).head.bound = s.head.bound := rfl
@[simp] theorem judgeHead_head_panel : (judgeHead s).head.panel = s.head.panel := rfl
@[simp] theorem judgeHead_head_cursor : (judgeHead s).head.cursor = s.head.cursor := rfl
@[simp] theorem judgeHead_head_flight : (judgeHead s).head.flight = s.head.flight := rfl
@[simp] theorem judgeHead_head_wanted : (judgeHead s).head.wanted = s.head.wanted := rfl
@[simp] theorem judgeHead_head_run : (judgeHead s).head.run = s.head.run := rfl
@[simp] theorem judgeHead_head_suspended : (judgeHead s).head.suspended = s.head.suspended := rfl
@[simp] theorem judgeHead_head_committed : (judgeHead s).head.committed = s.head.committed := rfl
@[simp] theorem judgeHead_head_arrival : (judgeHead s).head.arrival = s.head.arrival := rfl
@[simp] theorem judgeHead_head_passage : (judgeHead s).head.passage = s.head.passage := rfl
@[simp] theorem judgeHead_head_wish : (judgeHead s).head.wish = s.head.wish := rfl
@[simp] theorem judgeHead_head_marks : (judgeHead s).head.marks = s.head.marks := rfl
@[simp] theorem judgeHead_head_counting : (judgeHead s).head.counting = s.head.counting := rfl
@[simp] theorem judgeHead_head_lastMark : (judgeHead s).head.lastMark = s.head.lastMark := rfl
@[simp] theorem judgeHead_head_counted : (judgeHead s).head.counted = s.head.counted := rfl
@[simp] theorem judgeHead_head_expected : (judgeHead s).head.expected = s.head.expected := rfl
@[simp] theorem judgeHead_head_absent : (judgeHead s).head.absent = s.head.absent := rfl
@[simp] theorem judgeHead_head_aligned : (judgeHead s).head.aligned = s.head.aligned := rfl
@[simp] theorem judgeHead_head_offset : (judgeHead s).head.offset = s.head.offset := rfl
@[simp] theorem judgeHead_head_gapOwed : (judgeHead s).head.gapOwed = s.head.gapOwed := rfl
@[simp] theorem judgeHead_head_drainSpent : (judgeHead s).head.drainSpent = s.head.drainSpent := rfl
@[simp] theorem judgeHead_head_meter : (judgeHead s).head.meter = s.head.meter := rfl
@[simp] theorem judgeHead_head_align : (judgeHead s).head.align = s.head.align := rfl
@[simp] theorem judgeHead_head_mapNeed : (judgeHead s).head.mapNeed = s.head.mapNeed := rfl
@[simp] theorem judgeHead_head_again : (judgeHead s).head.again = s.head.again := rfl
@[simp] theorem judgeHead_head_blade : (judgeHead s).head.blade = s.head.blade := rfl
@[simp] theorem judgeHead_head_window : (judgeHead s).head.window = s.head.window := rfl
@[simp] theorem judgeHead_head_late : (judgeHead s).head.late = s.head.late := rfl

@[simp] theorem headAgain_head_state : (headAgain s).head.state = s.head.state := rfl
@[simp] theorem headAgain_head_f : (headAgain s).head.f = s.head.f := rfl
@[simp] theorem headAgain_head_o : (headAgain s).head.o = s.head.o := rfl
@[simp] theorem headAgain_head_bound : (headAgain s).head.bound = s.head.bound := rfl
@[simp] theorem headAgain_head_panel : (headAgain s).head.panel = s.head.panel := rfl
@[simp] theorem headAgain_head_cursor : (headAgain s).head.cursor = s.head.cursor := rfl
@[simp] theorem headAgain_head_flight : (headAgain s).head.flight = s.head.flight := rfl
@[simp] theorem headAgain_head_wanted : (headAgain s).head.wanted = s.head.wanted := rfl
@[simp] theorem headAgain_head_run : (headAgain s).head.run = s.head.run := rfl
@[simp] theorem headAgain_head_suspended : (headAgain s).head.suspended = s.head.suspended := rfl
@[simp] theorem headAgain_head_committed : (headAgain s).head.committed = s.head.committed := rfl
@[simp] theorem headAgain_head_arrival : (headAgain s).head.arrival = s.head.arrival := rfl
@[simp] theorem headAgain_head_passage : (headAgain s).head.passage = s.head.passage := rfl
@[simp] theorem headAgain_head_wish : (headAgain s).head.wish = s.head.wish := rfl
@[simp] theorem headAgain_head_marks : (headAgain s).head.marks = s.head.marks := rfl
@[simp] theorem headAgain_head_counting : (headAgain s).head.counting = s.head.counting := rfl
@[simp] theorem headAgain_head_lastMark : (headAgain s).head.lastMark = s.head.lastMark := rfl
@[simp] theorem headAgain_head_counted : (headAgain s).head.counted = s.head.counted := rfl
@[simp] theorem headAgain_head_expected : (headAgain s).head.expected = s.head.expected := rfl
@[simp] theorem headAgain_head_absent : (headAgain s).head.absent = s.head.absent := rfl
@[simp] theorem headAgain_head_aligned : (headAgain s).head.aligned = s.head.aligned := rfl
@[simp] theorem headAgain_head_offset : (headAgain s).head.offset = s.head.offset := rfl
@[simp] theorem headAgain_head_gapOwed : (headAgain s).head.gapOwed = s.head.gapOwed := rfl
@[simp] theorem headAgain_head_drainSpent : (headAgain s).head.drainSpent = s.head.drainSpent := rfl
@[simp] theorem headAgain_head_meter : (headAgain s).head.meter = s.head.meter := rfl
@[simp] theorem headAgain_head_align : (headAgain s).head.align = s.head.align := rfl
@[simp] theorem headAgain_head_mapNeed : (headAgain s).head.mapNeed = s.head.mapNeed := rfl
@[simp] theorem headAgain_head_blade : (headAgain s).head.blade = s.head.blade := rfl
@[simp] theorem headAgain_head_window : (headAgain s).head.window = s.head.window := rfl
@[simp] theorem headAgain_head_late : (headAgain s).head.late = s.head.late := rfl

@[simp] theorem withdraw_head_state : (withdraw s).head.state = s.head.state := rfl
@[simp] theorem withdraw_head_f : (withdraw s).head.f = s.head.f := rfl
@[simp] theorem withdraw_head_o : (withdraw s).head.o = s.head.o := rfl
@[simp] theorem withdraw_head_bound : (withdraw s).head.bound = s.head.bound := rfl
@[simp] theorem withdraw_head_panel : (withdraw s).head.panel = s.head.panel := rfl
@[simp] theorem withdraw_head_cursor : (withdraw s).head.cursor = s.head.cursor := rfl
@[simp] theorem withdraw_head_flight : (withdraw s).head.flight = s.head.flight := rfl
@[simp] theorem withdraw_head_run : (withdraw s).head.run = s.head.run := rfl
@[simp] theorem withdraw_head_suspended : (withdraw s).head.suspended = s.head.suspended := rfl
@[simp] theorem withdraw_head_committed : (withdraw s).head.committed = s.head.committed := rfl
@[simp] theorem withdraw_head_arrival : (withdraw s).head.arrival = s.head.arrival := rfl
@[simp] theorem withdraw_head_passage : (withdraw s).head.passage = s.head.passage := rfl
@[simp] theorem withdraw_head_wish : (withdraw s).head.wish = s.head.wish := rfl
@[simp] theorem withdraw_head_marks : (withdraw s).head.marks = s.head.marks := rfl
@[simp] theorem withdraw_head_counting : (withdraw s).head.counting = s.head.counting := rfl
@[simp] theorem withdraw_head_lastMark : (withdraw s).head.lastMark = s.head.lastMark := rfl
@[simp] theorem withdraw_head_counted : (withdraw s).head.counted = s.head.counted := rfl
@[simp] theorem withdraw_head_expected : (withdraw s).head.expected = s.head.expected := rfl
@[simp] theorem withdraw_head_absent : (withdraw s).head.absent = s.head.absent := rfl
@[simp] theorem withdraw_head_aligned : (withdraw s).head.aligned = s.head.aligned := rfl
@[simp] theorem withdraw_head_offset : (withdraw s).head.offset = s.head.offset := rfl
@[simp] theorem withdraw_head_gapOwed : (withdraw s).head.gapOwed = s.head.gapOwed := rfl
@[simp] theorem withdraw_head_drainSpent : (withdraw s).head.drainSpent = s.head.drainSpent := rfl
@[simp] theorem withdraw_head_meter : (withdraw s).head.meter = s.head.meter := rfl
@[simp] theorem withdraw_head_align : (withdraw s).head.align = s.head.align := rfl
@[simp] theorem withdraw_head_mapNeed : (withdraw s).head.mapNeed = s.head.mapNeed := rfl
@[simp] theorem withdraw_head_again : (withdraw s).head.again = s.head.again := rfl
@[simp] theorem withdraw_head_blade : (withdraw s).head.blade = s.head.blade := rfl
@[simp] theorem withdraw_head_window : (withdraw s).head.window = s.head.window := rfl
@[simp] theorem withdraw_head_late : (withdraw s).head.late = s.head.late := rfl

@[simp] theorem misalign_head_state : (misalign s).head.state = s.head.state := rfl
@[simp] theorem misalign_head_f : (misalign s).head.f = s.head.f := rfl
@[simp] theorem misalign_head_o : (misalign s).head.o = s.head.o := rfl
@[simp] theorem misalign_head_bound : (misalign s).head.bound = s.head.bound := rfl
@[simp] theorem misalign_head_panel : (misalign s).head.panel = s.head.panel := rfl
@[simp] theorem misalign_head_cursor : (misalign s).head.cursor = s.head.cursor := rfl
@[simp] theorem misalign_head_flight : (misalign s).head.flight = s.head.flight := rfl
@[simp] theorem misalign_head_wanted : (misalign s).head.wanted = s.head.wanted := rfl
@[simp] theorem misalign_head_run : (misalign s).head.run = s.head.run := rfl
@[simp] theorem misalign_head_suspended : (misalign s).head.suspended = s.head.suspended := rfl
@[simp] theorem misalign_head_committed : (misalign s).head.committed = s.head.committed := rfl
@[simp] theorem misalign_head_arrival : (misalign s).head.arrival = s.head.arrival := rfl
@[simp] theorem misalign_head_passage : (misalign s).head.passage = s.head.passage := rfl
@[simp] theorem misalign_head_wish : (misalign s).head.wish = s.head.wish := rfl
@[simp] theorem misalign_head_marks : (misalign s).head.marks = s.head.marks := rfl
@[simp] theorem misalign_head_counting : (misalign s).head.counting = s.head.counting := rfl
@[simp] theorem misalign_head_lastMark : (misalign s).head.lastMark = s.head.lastMark := rfl
@[simp] theorem misalign_head_counted : (misalign s).head.counted = s.head.counted := rfl
@[simp] theorem misalign_head_expected : (misalign s).head.expected = s.head.expected := rfl
@[simp] theorem misalign_head_absent : (misalign s).head.absent = s.head.absent := rfl
@[simp] theorem misalign_head_offset : (misalign s).head.offset = s.head.offset := rfl
@[simp] theorem misalign_head_gapOwed : (misalign s).head.gapOwed = s.head.gapOwed := rfl
@[simp] theorem misalign_head_drainSpent : (misalign s).head.drainSpent = s.head.drainSpent := rfl
@[simp] theorem misalign_head_meter : (misalign s).head.meter = s.head.meter := rfl
@[simp] theorem misalign_head_align : (misalign s).head.align = s.head.align := rfl
@[simp] theorem misalign_head_mapNeed : (misalign s).head.mapNeed = s.head.mapNeed := rfl
@[simp] theorem misalign_head_again : (misalign s).head.again = s.head.again := rfl
@[simp] theorem misalign_head_blade : (misalign s).head.blade = s.head.blade := rfl
@[simp] theorem misalign_head_window : (misalign s).head.window = s.head.window := rfl
@[simp] theorem misalign_head_late : (misalign s).head.late = s.head.late := rfl

@[simp] theorem dropMarks_head_state : (dropMarks s).head.state = s.head.state := rfl
@[simp] theorem dropMarks_head_f : (dropMarks s).head.f = s.head.f := rfl
@[simp] theorem dropMarks_head_o : (dropMarks s).head.o = s.head.o := rfl
@[simp] theorem dropMarks_head_bound : (dropMarks s).head.bound = s.head.bound := rfl
@[simp] theorem dropMarks_head_panel : (dropMarks s).head.panel = s.head.panel := rfl
@[simp] theorem dropMarks_head_cursor : (dropMarks s).head.cursor = s.head.cursor := rfl
@[simp] theorem dropMarks_head_flight : (dropMarks s).head.flight = s.head.flight := rfl
@[simp] theorem dropMarks_head_wanted : (dropMarks s).head.wanted = s.head.wanted := rfl
@[simp] theorem dropMarks_head_run : (dropMarks s).head.run = s.head.run := rfl
@[simp] theorem dropMarks_head_suspended : (dropMarks s).head.suspended = s.head.suspended := rfl
@[simp] theorem dropMarks_head_committed : (dropMarks s).head.committed = s.head.committed := rfl
@[simp] theorem dropMarks_head_arrival : (dropMarks s).head.arrival = s.head.arrival := rfl
@[simp] theorem dropMarks_head_passage : (dropMarks s).head.passage = s.head.passage := rfl
@[simp] theorem dropMarks_head_wish : (dropMarks s).head.wish = s.head.wish := rfl
@[simp] theorem dropMarks_head_counting : (dropMarks s).head.counting = s.head.counting := rfl
@[simp] theorem dropMarks_head_lastMark : (dropMarks s).head.lastMark = s.head.lastMark := rfl
@[simp] theorem dropMarks_head_counted : (dropMarks s).head.counted = s.head.counted := rfl
@[simp] theorem dropMarks_head_expected : (dropMarks s).head.expected = s.head.expected := rfl
@[simp] theorem dropMarks_head_absent : (dropMarks s).head.absent = s.head.absent := rfl
@[simp] theorem dropMarks_head_aligned : (dropMarks s).head.aligned = s.head.aligned := rfl
@[simp] theorem dropMarks_head_offset : (dropMarks s).head.offset = s.head.offset := rfl
@[simp] theorem dropMarks_head_gapOwed : (dropMarks s).head.gapOwed = s.head.gapOwed := rfl
@[simp] theorem dropMarks_head_drainSpent : (dropMarks s).head.drainSpent = s.head.drainSpent := rfl
@[simp] theorem dropMarks_head_meter : (dropMarks s).head.meter = s.head.meter := rfl
@[simp] theorem dropMarks_head_align : (dropMarks s).head.align = s.head.align := rfl
@[simp] theorem dropMarks_head_mapNeed : (dropMarks s).head.mapNeed = s.head.mapNeed := rfl
@[simp] theorem dropMarks_head_again : (dropMarks s).head.again = s.head.again := rfl
@[simp] theorem dropMarks_head_blade : (dropMarks s).head.blade = s.head.blade := rfl
@[simp] theorem dropMarks_head_window : (dropMarks s).head.window = s.head.window := rfl
@[simp] theorem dropMarks_head_late : (dropMarks s).head.late = s.head.late := rfl

/-! Spindles -/

@[simp] theorem mapSpindle_rolls (i : SpindleId) (f : Spindle → Spindle) :
    (s.mapSpindle i f).turret.rolls = s.turret.rolls := by cases i <;> rfl

@[simp] theorem mapSpindle_line (i : SpindleId) (f : Spindle → Spindle) : (s.mapSpindle i f).line = s.line := by
  cases i <;> rfl

@[simp] theorem mapSpindle_head (i : SpindleId) (f : Spindle → Spindle) : (s.mapSpindle i f).head = s.head := by
  cases i <;> rfl

@[simp] theorem mapSpindle_port (i : SpindleId) (f : Spindle → Spindle) : (s.mapSpindle i f).port = s.port := by
  cases i <;> rfl

@[simp] theorem mapSpindle_mem (i : SpindleId) (f : Spindle → Spindle) : (s.mapSpindle i f).mem = s.mem := by
  cases i <;> rfl

end Sys2Proof.Machine
end

