-- ==== Sys2Proof/Laws/Memory.lean ====
section
/-! SUPPORT. Shared memory (R172, log entry 3): every operation keeps the canonical form, a read after a write to the same address
gives the byte written, and a write leaves every other address as it was. -/

namespace Sys2Proof.Machine

/-- The canonical form as a property of the head and of the rest. -/
theorem Memory.wf_cons (c : Host.Cell) (m : Memory) :
    Memory.wf (c :: m) = true ↔
      c.2 ≠ Memory.unlisted ∧ (∀ d, m.head? = some d → c.1 < d.1) ∧ Memory.wf m = true := by
  cases m with
  | nil => cases c; simp [Memory.wf]
  | cons d m => cases c; cases d; simp [Memory.wf, and_assoc]

/-- The canonical form of the rest. -/
theorem Memory.wf_tail {c : Host.Cell} {m : Memory} (h : Memory.wf (c :: m) = true) : Memory.wf m = true :=
  ((Memory.wf_cons c m).1 h).2.2

/-- In canonical memory an address below the first listed one reads as unlisted. -/
theorem Memory.read_below {m : Memory} {a : Nat} (h : ∀ d, m.head? = some d → a < d.1) :
    Memory.read m a = Memory.unlisted := by
  cases m with
  | nil => rfl
  | cons c m =>
    have := h c rfl
    obtain ⟨b, v⟩ := c
    simp only [Memory.read]
    simp at this
    rw [if_neg (by omega), if_pos this]

/-- In canonical memory the rest reads as unlisted at and below the first address. -/
theorem Memory.read_rest {c : Host.Cell} {m : Memory} (h : Memory.wf (c :: m) = true) {a : Nat} (ha : a ≤ c.1) :
    Memory.read m a = Memory.unlisted :=
  Memory.read_below (fun d hd => Nat.lt_of_le_of_lt ha (((Memory.wf_cons c m).1 h).2.1 d hd))

/-- What `Memory.cons` puts first lies at the address given or is the rest's first. -/
theorem Memory.cons_head {a : Nat} {v : Byte} {m : Memory} {d : Host.Cell} (h : (Memory.cons a v m).head? = some d) :
    d.1 = a ∨ m.head? = some d := by
  unfold Memory.cons at h
  split at h
  · exact .inr h
  · simp at h; exact .inl (by rw [← h])

/-- `Memory.cons` keeps the canonical form. -/
theorem Memory.cons_wf {a : Nat} {v : Byte} {m : Memory} (h : Memory.wf m = true)
    (ha : ∀ d, m.head? = some d → a < d.1) : Memory.wf (Memory.cons a v m) = true := by
  unfold Memory.cons
  split
  · exact h
  · rename_i hv; exact (Memory.wf_cons _ _).2 ⟨hv, ha, h⟩

/-- What a write puts first lies at the address written or was first. -/
theorem Memory.write_head {m : Memory} (hm : Memory.wf m = true) {a : Nat} {v : Byte} {d : Host.Cell}
    (h : (Memory.write m a v).head? = some d) : d.1 = a ∨ ∃ c, m.head? = some c ∧ c.1 ≤ d.1 := by
  cases m with
  | nil =>
    rcases Memory.cons_head h with h | h
    · exact .inl h
    · cases h
  | cons c m =>
    obtain ⟨b, w⟩ := c
    simp only [Memory.write] at h
    split at h
    · rcases Memory.cons_head h with h | h
      · exact .inl h
      · exact .inr ⟨_, rfl, Nat.le_of_lt (((Memory.wf_cons _ _).1 hm).2.1 d h)⟩
    · split at h
      · rcases Memory.cons_head h with h | h
        · exact .inl h
        · simp at h; exact .inr ⟨_, rfl, by rw [← h]⟩
      · simp at h; exact .inr ⟨_, rfl, by rw [← h]⟩

/-- A write keeps the canonical form. -/
theorem Memory.write_wf {m : Memory} (h : Memory.wf m = true) (a : Nat) (v : Byte) :
    Memory.wf (Memory.write m a v) = true := by
  induction m with
  | nil => exact Memory.cons_wf rfl (by simp)
  | cons c m ih =>
    obtain ⟨b, w⟩ := c
    have hc := (Memory.wf_cons _ _).1 h
    simp only [Memory.write]
    split
    · rename_i hab; subst hab; exact Memory.cons_wf hc.2.2 hc.2.1
    · split
      · rename_i hlt; exact Memory.cons_wf h (by intro d hd; simp at hd; rw [← hd]; exact hlt)
      · rename_i hne hge
        refine (Memory.wf_cons _ _).2 ⟨hc.1, ?_, ih hc.2.2⟩
        intro d hd
        rcases Memory.write_head hc.2.2 hd with hd | ⟨x, hx, hxd⟩
        · simp only; omega
        · exact Nat.lt_of_lt_of_le (hc.2.1 x hx) hxd

/-- What `Memory.cons` reads. -/
theorem Memory.cons_read {a : Nat} {v : Byte} {m : Memory} (ha : ∀ d, m.head? = some d → a < d.1) (x : Nat) :
    Memory.read (Memory.cons a v m) x = if x = a then v else Memory.read m x := by
  unfold Memory.cons
  split
  · rename_i hv
    split
    · rename_i hx; subst hx; rw [Memory.read_below ha, hv]
    · rfl
  · simp only [Memory.read]
    split
    · rfl
    · split
      · rename_i hlt
        exact (Memory.read_below (fun d hd => Nat.lt_trans hlt (ha d hd))).symm
      · rfl

/-- Reading after a write: the byte written at its address, and every other address as before. -/
theorem Memory.read_write {m : Memory} (h : Memory.wf m = true) (a x : Nat) (v : Byte) :
    Memory.read (Memory.write m a v) x = if x = a then v else Memory.read m x := by
  induction m with
  | nil => exact Memory.cons_read (by simp) x
  | cons c m ih =>
    obtain ⟨b, w⟩ := c
    have hc := (Memory.wf_cons _ _).1 h
    simp only [Memory.write]
    split
    · rename_i hab
      subst hab
      rw [Memory.cons_read hc.2.1]
      split
      · rfl
      · rename_i hx
        simp only [Memory.read, if_neg hx]
        split
        · exact Memory.read_rest h (Nat.le_of_lt (by assumption))
        · rfl
    · split
      · rename_i hlt
        exact Memory.cons_read (by intro d hd; simp at hd; rw [← hd]; exact hlt) x
      · simp only [Memory.read, ih hc.2.2]
        split
        · rw [if_neg (by omega)]
        · split
          · rw [if_neg (by omega)]
          · rfl

/-- Storing keeps the canonical form. -/
theorem Memory.store_wf {m : Memory} (h : Memory.wf m = true) (bad : List Span) (ps : List (Nat × Byte)) :
    Memory.wf (Memory.store bad ps m).1 = true := by
  induction ps generalizing m with
  | nil => exact h
  | cons p ps ih =>
    simp only [Memory.store]
    split
    · exact h
    · exact ih (Memory.write_wf h _ _)

/-- Storing leaves every address that is not stored to as it was. -/
theorem Memory.store_read_other {m : Memory} (h : Memory.wf m = true) (bad : List Span) {ps : List (Nat × Byte)} {x : Nat}
    (hx : ∀ p ∈ ps, p.1 ≠ x) : Memory.read (Memory.store bad ps m).1 x = Memory.read m x := by
  induction ps generalizing m with
  | nil => rfl
  | cons p ps ih =>
    simp only [Memory.store]
    split
    · rfl
    · rw [ih (Memory.write_wf h _ _) (fun q hq => hx q (List.mem_cons_of_mem _ hq)), Memory.read_write h,
        if_neg (fun e => hx p List.mem_cons_self e.symm)]

/-- The line computer's writes keep the canonical form. -/
theorem Memory.foldl_write_wf {m : Memory} (h : Memory.wf m = true) (ws : List (U32 × Byte)) :
    Memory.wf (ws.foldl (fun m w => m.write w.1.toNat w.2) m) = true := by
  induction ws generalizing m with
  | nil => exact h
  | cons w ws ih => exact ih (Memory.write_wf h _ _)

end Sys2Proof.Machine
end

