-- ==== Sys2Proof/Laws/Sound.lean ====
section
/-! SUPPORT. What every shared operation keeps: the invariants of Safety.lean, and the parts of the state that only a command of their
own changes. `Sure s t` says it of the operations an event ends with, `Good s t` of those that decide waiting requests too. The
operations of Ops, Port, Line and Ceiling follow; each lemma says once what the operation can do to these parts. -/

namespace Sys2Proof.Machine

/-- The parts that only a command of their own changes. -/
structure Same (s t : State) : Prop where
  pending : t.pending = s.pending
  bus : t.bus = s.bus
  clock : t.line.clock = s.line.clock
  commanded : t.line.commanded = s.line.commanded
  range : t.line.range = s.line.range
  cause : t.line.cause = s.line.cause
  consts : t.line.consts = s.line.consts
  estop : t.line.estop = s.line.estop
  drive : t.line.drive = s.line.drive
  classes : t.turret.classes = s.turret.classes
  par : t.chest.par = s.chest.par

/-- An operation that leaves those parts and keeps the invariants. -/
structure Sure (s t : State) : Prop where
  same : Same s t
  inv : Inv s → Inv t

/-- An operation that leaves the queue, the bus and the clock, never unsets the constants, and keeps the invariants. -/
structure Good (s t : State) : Prop where
  pending : t.pending = s.pending
  bus : t.bus = s.bus
  clock : t.line.clock = s.line.clock
  consts : s.line.consts.isSome = true → t.line.consts.isSome = true
  inv : Inv s → Inv t

theorem Same.refl (s : State) : Same s s := ⟨rfl, rfl, rfl, rfl, rfl, rfl, rfl, rfl, rfl, rfl, rfl⟩

theorem Same.trans {s t u : State} (a : Same s t) (b : Same t u) : Same s u :=
  ⟨b.pending.trans a.pending, b.bus.trans a.bus, b.clock.trans a.clock, b.commanded.trans a.commanded,
    b.range.trans a.range, b.cause.trans a.cause, b.consts.trans a.consts, b.estop.trans a.estop, b.drive.trans a.drive,
    b.classes.trans a.classes, b.par.trans a.par⟩

theorem Sure.refl (s : State) : Sure s s := ⟨Same.refl s, id⟩

theorem Sure.trans {s t u : State} (a : Sure s t) (b : Sure t u) : Sure s u :=
  ⟨a.same.trans b.same, fun h => b.inv (a.inv h)⟩

theorem Sure.ite {s t u : State} {p : Prop} [Decidable p] (a : Sure s t) (b : Sure s u) :
    Sure s (if p then t else u) := by split <;> assumption

theorem Sure.foldl {α : Type} {f : State → α → State} (hf : ∀ s a, Sure s (f s a)) (l : List α) (s : State) :
    Sure s (l.foldl f s) := by
  induction l generalizing s with
  | nil => exact Sure.refl s
  | cons a l ih => exact (hf s a).trans (ih _)

theorem Sure.good {s t : State} (a : Sure s t) : Good s t :=
  ⟨a.same.pending, a.same.bus, a.same.clock, fun h => by rw [a.same.consts]; exact h, a.inv⟩

theorem Good.refl (s : State) : Good s s := (Sure.refl s).good

theorem Good.trans {s t u : State} (a : Good s t) (b : Good t u) : Good s u :=
  ⟨b.pending.trans a.pending, b.bus.trans a.bus, b.clock.trans a.clock, fun h => b.consts (a.consts h),
    fun h => b.inv (a.inv h)⟩

theorem Good.ite {s t u : State} {p : Prop} [Decidable p] (a : Good s t) (b : Good s u) :
    Good s (if p then t else u) := by split <;> assumption

theorem Good.foldl {α : Type} {f : State → α → State} (hf : ∀ s a, Good s (f s a)) (l : List α) (s : State) :
    Good s (l.foldl f s) := by
  induction l generalizing s with
  | nil => exact Good.refl s
  | cons a l ih => exact (hf s a).trans (ih _)

/-- What is held for the line computer, and where (`State.nothingHeld`). -/
def State.heldView (s : State) :=
  ((s.port.state, s.port.table, s.port.posting, s.port.out, s.port.ret, s.port.scan, s.port.rescan),
   (s.lib.bufA, s.lib.bufB, s.lib.slots), s.orders,
   (s.head.align, s.web.awaits, s.line.stopWatches, s.line.startWatch), (s.turret.now, s.turret.rolls))

/-- Everything else that `Sure` speaks of. -/
def State.base (s : State) :=
  ((s.pending, s.bus, s.mem, s.port.table.length),
   (s.lib.slots, s.lib.bufA, s.lib.bufB),
   (s.turret.classes, s.turret.rolls, s.turret.seq, s.turret.pressOut),
   (s.chest.zones.length, s.chest.cells.length, s.chest.par),
   (s.head.state, s.head.panel.isSome, s.head.align.isSome),
   (s.line.state, s.line.holds, s.line.cause, s.line.halts, s.line.range, s.line.commanded, s.line.limit, s.line.ceiling,
    s.line.effective, s.line.speedRef, s.line.store, s.line.latchShut, s.line.unwind, s.line.consts, s.line.clock,
    s.line.estop, s.line.drive))

/-- Everything `Sure` speaks of. -/
def State.view (s : State) := (s.base, s.heldView)

/-- What is held in READY alone stays so where the port keeps its state and nothing new is held. -/
theorem heldInReady_of {s t : State} (h : s.heldInReady) (hp : t.port.state = s.port.state) (k : s.nothingHeld → t.nothingHeld) :
    t.heldInReady := fun hr => k (h (by rw [← hp]; exact hr))

/-- In READY requests may be held. -/
theorem heldInReady_ready {t : State} (h : t.port.state = .ready) : t.heldInReady := fun hr => absurd h hr

/-- An operation that changes nothing but what is held, and holds nothing outside READY. -/
theorem Sure.of_base {s t : State} (h : t.base = s.base) (hh : Inv s → t.heldInReady) : Sure s t := by
  simp only [State.base, Prod.mk.injEq] at h
  obtain ⟨⟨p1, p2, p3, p4⟩, ⟨l1, l2, l3⟩, ⟨t1, t2, t3, t4⟩, ⟨c1, c2, c3⟩, ⟨h1, h2, h3⟩,
    ⟨n1, n2, n3, n4, n5, n6, n7, n8, n9, n10, n11, n12, n13, n14, n15, n16, n17⟩⟩ := h
  refine ⟨⟨p1, p2, n15, n6, n5, n3, n14, n16, n17, t1, c3⟩, fun h => ?_⟩
  have hh := hh h
  constructor
  · rw [p3]; exact h.mem
  · have := h.shape; simp only [State.shaped] at this ⊢; rw [l1, t1, c1, c2]; exact this
  · have := h.trial; simp only [State.trialKept] at this ⊢; rw [l1, l2, l3]; exact this
  · have := h.store; simp only [State.storeWithin] at this ⊢; rw [n14, n11]; exact this
  · have := h.range; simp only [State.speedsInRange] at this ⊢; rw [n5, n6, n7]; exact this
  · have := h.speed; simp only [State.speedDriven] at this ⊢; rw [n9, n6, n5, n8, n7, n10, n1]; exact this
  · have := h.press; simp only [State.pressDriven] at this ⊢; rw [t4, t3, n1, n12, n13]; exact this
  · have := h.rolls; simp only [State.rollsWithin] at this ⊢; rw [t2]; exact this
  · have := h.tags; simp only [State.rollsDistinct] at this ⊢; rw [t2]; exact this
  · have := h.table; simp only [State.tableWithin] at this ⊢; rw [p4]; exact this
  · exact hh
  · have := h.head; simp only [State.headFollows] at this ⊢; rw [h1, n1, h2, h3]; exact this
  · have := h.holds; simp only [State.holdsFit] at this ⊢; rw [n1, n2]; exact this
  · have := h.halts; simp only [State.haltsFit] at this ⊢; rw [n1, n3, n4]; exact this

/-- An operation that changes none of it. -/
theorem Sure.of_view {s t : State} (h : t.view = s.view) : Sure s t := by
  obtain ⟨h1, h2⟩ := Prod.mk.inj h
  refine Sure.of_base h1 (fun i => ?_)
  simp only [State.heldView, Prod.mk.injEq] at h2
  obtain ⟨⟨p0, p1, p2, p3, p4, p5, p6⟩, ⟨l1, l2, l3⟩, o, ⟨a1, a2, a3, a4⟩, ⟨t1, t2⟩⟩ := h2
  refine heldInReady_of i.held p0 (fun k => ?_)
  simp only [State.nothingHeld, p1, p2, p3, p4, p5, p6, l1, l2, l3, o, a1, a2, a3, a4, t1, t2]
  exact k

/-- A request in the table is held, and so the port is READY. -/
theorem Inv.ready_of_entry {s : State} (h : Inv s) {no : Nat} (e : s.holdsEntry no = true) : s.port.state = .ready := by
  by_contra hr
  simp [State.holdsEntry, State.entry, (h.held hr).1.1] at e

/-- An operation of a READY port that changes nothing but what is held. -/
theorem Sure.of_ready {s t : State} (h : t.base = s.base) (hr : Inv s → t.port.state = .ready) : Sure s t :=
  Sure.of_base h (fun i => heldInReady_ready (hr i))

/-- An operation that changes nothing but what is held, and holds nothing new. -/
theorem Sure.of_less {s t : State} (h : t.base = s.base) (hp : t.port.state = s.port.state) (k : s.nothingHeld → t.nothingHeld) :
    Sure s t := Sure.of_base h (fun i => heldInReady_of i.held hp k)

/-! ### Ops -/

theorem store_sure (ps : List (Nat × Byte)) (s : State) : Sure s (s.store ps) :=
  ⟨⟨rfl, rfl, rfl, rfl, rfl, rfl, rfl, rfl, rfl, rfl, rfl⟩, fun h => { h with mem := Memory.store_wf h.mem _ _ }⟩

theorem mapEntry_sure (no : Nat) (f : Entry → Entry) (s : State) : Sure s (s.mapEntry no f) :=
  Sure.of_less (by simp [State.base, State.mapEntry]) rfl
    (fun k => ⟨⟨by simp [State.mapEntry, k.1.1], k.1.2⟩, k.2⟩)

/-- The orders changed, none of them by a new watch. -/
theorem setOrders_sure (l : List Order) (s : State) (hl : (∀ o ∈ s.orders, o.watch = none) → ∀ o ∈ l, o.watch = none) :
    Sure s { s with orders := l } := Sure.of_less rfl rfl (fun k => ⟨k.1, k.2.1, hl k.2.2.1, k.2.2.2⟩)

/-- Orders changed one by one, none of them by a new watch. -/
theorem mapOrders_sure {f : Order → Order} (hw : ∀ o, o.watch = none → (f o).watch = none) (s : State) :
    Sure s { s with orders := s.orders.map f } :=
  setOrders_sure _ s (fun h o ho => by obtain ⟨x, hx, rfl⟩ := List.mem_map.1 ho; exact hw x (h x hx))

theorem mapOrder_sure (tag : Nat) (f : Order → Order) (s : State)
    (hw : ∀ o, o.watch = none → (f o).watch = none := by exact fun _ h => h) : Sure s (s.mapOrder tag f) :=
  mapOrders_sure (fun o h => by split; exacts [hw o h, h]) s

theorem filterOrders_sure (p : Order → Bool) (s : State) : Sure s { s with orders := s.orders.filter p } :=
  setOrders_sure _ s (fun h o ho => h o (List.mem_filter.1 ho).1)

theorem mapPanel_sure (id : Nat) (f : Panel → Panel) (s : State) : Sure s (s.mapPanel id f) := Sure.of_view rfl

theorem mapSpindle_sure (i : SpindleId) (f : Spindle → Spindle) (s : State) : Sure s (s.mapSpindle i f) := by
  cases i <;> exact Sure.of_view rfl

theorem mapZone_sure (z : ZoneId) (f : Zone → Zone) (s : State) : Sure s (s.mapZone z f) :=
  Sure.of_view (by simp [State.view, State.base, State.heldView, State.mapZone])

theorem mapRolls_sure {f : Roll → Roll} (ht : ∀ r, (f r).tag = r.tag) (hf : ∀ r, r.u ≤ r.declared → (f r).u ≤ (f r).declared)
    (s : State) (hw : ∀ r, r.watch = none → (f r).watch = none := by exact fun _ h => h) :
    Sure s { s with turret.rolls := s.turret.rolls.map f } := by
  refine ⟨⟨rfl, rfl, rfl, rfl, rfl, rfl, rfl, rfl, rfl, rfl, rfl⟩, fun h => { h with rolls := ?_, tags := ?_, held := ?_ }⟩
  · intro r hr
    obtain ⟨x, hx, rfl⟩ := List.mem_map.1 hr
    exact hf x (h.rolls x hx)
  · have e : (s.turret.rolls.map f).map Roll.tag = s.turret.rolls.map Roll.tag := by
      rw [List.map_map]; exact List.map_congr_left (fun r _ => ht r)
    unfold State.rollsDistinct
    rw [e]; exact h.tags
  · refine heldInReady_of h.held rfl (fun k => ⟨k.1, k.2.1, k.2.2.1, k.2.2.2.1, k.2.2.2.2.1, fun r hr => ?_⟩)
    obtain ⟨x, hx, rfl⟩ := List.mem_map.1 hr
    exact hw x (k.2.2.2.2.2 x hx)

theorem mapRoll_sure (tag : Nat) {f : Roll → Roll} (ht : ∀ r, (f r).tag = r.tag)
    (hf : ∀ r, r.u ≤ r.declared → (f r).u ≤ (f r).declared) (s : State)
    (hw : ∀ r, r.watch = none → (f r).watch = none := by exact fun _ h => h) : Sure s (s.mapRoll tag f) :=
  mapRolls_sure (fun r => by split; exacts [ht r, rfl]) (fun r hr => by split; exacts [hf r hr, hr]) s
    (fun r hr => by split; exacts [hw r hr, hr])

theorem filterRolls_sure (p : Roll → Bool) (s : State) :
    Sure s { s with turret.rolls := s.turret.rolls.filter p } :=
  ⟨⟨rfl, rfl, rfl, rfl, rfl, rfl, rfl, rfl, rfl, rfl, rfl⟩,
    fun h => { h with
      rolls := fun r hr => h.rolls r (List.mem_filter.1 hr).1
      tags := h.tags.sublist (List.filter_sublist.map _)
      held := heldInReady_of h.held rfl (fun k => ⟨k.1, k.2.1, k.2.2.1, k.2.2.2.1, k.2.2.2.2.1,
        fun r hr => k.2.2.2.2.2 r (List.mem_filter.1 hr).1⟩) }⟩

/-- What `trialKept` asks of slot 0. -/
def Slot.isTrial (x : Slot) : Prop :=
  x.state = .active ∧ x.pageA = some trialPage ∧ x.pageB = some trialPage ∧ x.live = some .a ∧ x.flip = false ∧ x.prot = true

/-- A slot that no request holds: not busy, and without a retire watch. -/
def Slot.isIdle (x : Slot) : Prop := x.busy = false ∧ x.watch = none

theorem slots_sure {l : List Slot} {s : State} (hl : l.length = s.lib.slots.length)
    (h0 : ∀ x, s.lib.slots[0]? = some x → x.isTrial → ∃ y, l[0]? = some y ∧ y.isTrial)
    (hi : s.port.state = .ready ∨ ((∀ x ∈ s.lib.slots, x.isIdle) → ∀ x ∈ l, x.isIdle)) :
    Sure s { s with lib.slots := l } := by
  refine ⟨⟨rfl, rfl, rfl, rfl, rfl, rfl, rfl, rfl, rfl, rfl, rfl⟩, fun h => { h with shape := ?_, trial := ?_, held := ?_ }⟩
  · exact ⟨hl.trans h.shape.1, h.shape.2⟩
  · obtain ⟨x, hx, ht⟩ := h.trial.1
    exact ⟨h0 x hx ht, h.trial.2⟩
  · rcases hi with hr | hi
    · exact heldInReady_ready hr
    · exact heldInReady_of h.held rfl (fun k => ⟨k.1, ⟨k.2.1.1, k.2.1.2.1, hi k.2.1.2.2⟩, k.2.2⟩)

theorem mapSlots_sure {f : Slot → Slot} (hf : ∀ x, x.isTrial → (f x).isTrial) (s : State)
    (hi : ∀ x, x.isIdle → (f x).isIdle := by exact fun _ h => h) :
    Sure s { s with lib.slots := s.lib.slots.map f } :=
  slots_sure (by simp) (fun x hx ht => ⟨f x, by simp [hx], hf x ht⟩)
    (.inr (fun h y hy => by obtain ⟨x, hx, rfl⟩ := List.mem_map.1 hy; exact hi x (h x hx)))

/-- One slot changed, on a READY port or by nothing new that holds it. -/
theorem setSlot_sure (n : Nat) {f : Slot → Slot} (hf : n = 0 → ∀ x, x.isTrial → (f x).isTrial) (s : State)
    (hi : s.port.state = .ready ∨ ∀ x, x.isIdle → (f x).isIdle) : Sure s (s.mapSlot n f) :=
  slots_sure (by simp) (fun x hx ht => by
    by_cases hn : n = 0
    · subst hn; exact ⟨f x, by simp [hx], hf rfl x ht⟩
    · exact ⟨x, by simp [hn, hx], ht⟩)
    (hi.imp id (fun hi h y hy => by
      obtain ⟨i, hy⟩ := List.mem_iff_getElem?.1 hy
      rw [List.getElem?_modify] at hy
      obtain ⟨x, hx, rfl⟩ := Option.map_eq_some_iff.1 hy
      have hxi := h x (List.mem_of_getElem? hx)
      split
      · exact hi x hxi
      · exact hxi))

theorem mapSlot_sure (n : Nat) {f : Slot → Slot} (hf : n = 0 → ∀ x, x.isTrial → (f x).isTrial) (s : State)
    (hi : ∀ x, x.isIdle → (f x).isIdle := by exact fun _ h => h) : Sure s (s.mapSlot n f) :=
  setSlot_sure n hf s (.inr hi)

/-- In a state with the invariants the slot of number 0 is the trial slot. -/
theorem Inv.slot_trial {s : State} (h : Inv s) : (s.slot 0).isTrial := by
  obtain ⟨x, hx, ht⟩ := h.trial.1
  have : s.slot 0 = x := by simp [State.slot, hx]
  rw [this]; exact ht

/-! ### Port -/

theorem setStage_sure (no : Nat) (st : Stage) (s : State) : Sure s (setStage no st s) := mapEntry_sure _ _ _

theorem setReq_sure (no : Nat) (q : Req) (c : Call) (s : State) : Sure s (setReq no q c s) := mapEntry_sure _ _ _

theorem holdRunning_sure (no : Nat) (s : State) : Sure s (holdRunning no s) := setStage_sure _ _ _

theorem holdWaiting_sure (no : Nat) (w : Await) (s : State) : Sure s (holdWaiting no w s) := setStage_sure _ _ _

theorem freeEntry_sure (no : Nat) (s : State) : Sure s (freeEntry no s) :=
  ⟨⟨rfl, rfl, rfl, rfl, rfl, rfl, rfl, rfl, rfl, rfl, rfl⟩,
    fun h => { h with
      table := Nat.le_trans (List.length_filter_le _ _) h.table
      held := heldInReady_of h.held rfl (fun k => by
        obtain ⟨⟨p1, p2, p3, p4, p5, p6⟩, k⟩ := k
        exact ⟨⟨by simp [freeEntry, p1], p2, p3, p4, by simp [freeEntry, p5], p6⟩, k⟩) }⟩

/-- R175: after the drop nothing is held, but for the rings and the scan, which the callers end. -/
theorem dropRequests_nothing (s : State) {t : State} (ht : t = { dropRequests s with port := t.port })
    (hp : t.port.table = [] ∧ t.port.posting = [] ∧ t.port.out = none ∧ t.port.ret = none ∧ t.port.scan = .idle ∧
      t.port.rescan = false) : t.nothingHeld := by
  rw [ht]
  refine ⟨hp, ⟨rfl, rfl, ?_⟩, ?_, ⟨?_, rfl, rfl, rfl⟩, rfl, ?_⟩
  · intro x hx; obtain ⟨y, _, rfl⟩ := List.mem_map.1 hx; exact ⟨rfl, rfl⟩
  · intro x hx; obtain ⟨y, _, rfl⟩ := List.mem_map.1 hx; rfl
  · intro a ha
    simp only [dropRequests, Option.map_eq_some_iff] at ha
    obtain ⟨b, _, rfl⟩ := ha; rfl
  · intro x hx; obtain ⟨y, _, rfl⟩ := List.mem_map.1 hx; rfl

theorem dropRequests_sure (s : State) : Sure s (dropRequests s) := by
  have a : Sure s { s with lib.slots := s.lib.slots.map (fun x => { x with busy := false, watch := none }) } :=
    mapSlots_sure (f := fun x => { x with busy := false, watch := none }) (fun x hx => hx) s (fun _ _ => ⟨rfl, rfl⟩)
  have b := fun t => mapRolls_sure (f := fun r => { r with watch := none }) (fun _ => rfl) (fun _ hr => hr) t (fun _ _ => rfl)
  refine (a.trans (b _)).trans ⟨⟨rfl, rfl, rfl, rfl, rfl, rfl, rfl, rfl, rfl, rfl, rfl⟩, fun h => ?_⟩
  refine { h with trial := ⟨h.trial.1, ?_, ?_⟩, table := Nat.zero_le _, head := ?_, held := ?_ }
  · intro f hf; simp [dropRequests] at hf
  · intro f hf; simp [dropRequests] at hf
  · exact heldInReady_of h.held rfl (fun k => dropRequests_nothing s rfl ⟨rfl, rfl, k.1.2.2⟩)
  · have := h.head
    unfold State.headFollows at this ⊢
    rw [show (dropRequests _ : State).head.state = s.head.state from rfl,
      show (dropRequests _ : State).line.state = s.line.state from rfl,
      show (dropRequests _ : State).head.panel = s.head.panel from rfl,
      show (dropRequests _ : State).head.align.isSome = s.head.align.isSome by simp [dropRequests]]
    exact this

theorem ringFault_sure (ret : Bool) (i : Nat) (s : State) : Sure s (ringFault ret i s) := by
  refine (dropRequests_sure s).trans (Sure.of_base rfl (fun _ _ => ?_))
  exact dropRequests_nothing s rfl ⟨rfl, rfl, rfl, rfl, rfl, rfl⟩

theorem posted_sure (it : PostItem) (r : Ring) (s : State) (hr : s.port.state = .ready) : Sure s (posted it r s) := by
  unfold posted
  simp only
  refine Sure.ite ?_ (Sure.of_ready rfl (fun _ => hr))
  refine Sure.trans ?_ (freeEntry_sure _ _)
  exact Sure.of_ready rfl (fun _ => hr)

/-- All that an examination with nothing to post can do. -/
theorem readReturn_cases (s : State) :
    readReturn s = s ∨ s.port.state = .ready ∧ ∃ i, readReturn s = ringFault true i s := by
  unfold readReturn
  split
  · split
    · exact .inr ⟨‹_›, _, rfl⟩
    · exact .inl rfl
  · exact .inl rfl

theorem readReturn_sure (s : State) : Sure s (readReturn s) := by
  rcases readReturn_cases s with e | ⟨_, i, e⟩ <;> rw [e]
  · exact Sure.refl _
  · exact ringFault_sure _ _ _

theorem postItems_sure (l : List PostItem) (s : State) : Sure s (postItems l s) := by
  induction l generalizing s with
  | nil =>
    refine Sure.trans (t := { s with port.posting := [] }) ?_ (readReturn_sure _)
    exact Sure.of_less rfl rfl (fun k => ⟨⟨k.1.1, rfl, k.1.2.2⟩, k.2⟩)
  | cons it rest ih =>
    unfold postItems
    split
    · rename_i hr _
      simp only
      split
      · split
        · split
          · refine Sure.trans ?_ (ih _)
            exact (store_sure _ _).trans (posted_sure _ _ _ hr)
          · refine Sure.trans ?_ (ringFault_sure _ _ _)
            exact store_sure _ _
        · exact Sure.of_ready rfl (fun _ => hr)
      · exact ringFault_sure _ _ _
    · exact Sure.refl s

theorem examineReturn_sure (s : State) : Sure s (examineReturn s) := postItems_sure _ _

theorem enqueue_sure (no : Nat) (items : List PostItem) (s : State) : Sure s (enqueue no items s) := by
  unfold enqueue
  split
  · rename_i e
    refine Sure.trans ?_ (examineReturn_sure _)
    exact Sure.of_ready (by simp [State.base, setStage, State.mapEntry]) (fun h => h.ready_of_entry e)
  · exact Sure.refl s

theorem writeAnswer_sure (q : Req) (a : Answer) (s : State) : Sure s (writeAnswer q a s) := by
  unfold writeAnswer
  simp only
  refine Sure.trans ?_ (store_sure _ _)
  refine Sure.trans ?_ (store_sure _ _)
  refine Sure.trans ?_ (store_sure _ _)
  split
  · exact store_sure _ _
  · refine Sure.trans ?_ (store_sure _ _)
    exact store_sure _ _

theorem concludeWith_sure (no : Nat) (q : Req) (a : Answer) (s : State) : Sure s (concludeWith no q a s) :=
  (writeAnswer_sure _ _ _).trans (enqueue_sure _ _ _)

theorem conclude_sure (no : Nat) (a : Answer) (s : State) : Sure s (conclude no a s) := by
  unfold conclude
  split
  · exact Sure.refl _
  · split
    · exact Sure.refl _
    · exact concludeWith_sure _ _ _ _

theorem concludeUnread_sure (no block : Nat) (a : Answer) (s : State) : Sure s (concludeUnread no block a s) :=
  concludeWith_sure _ _ _ _

theorem concludeWatch_sure (w : Option Nat) (a : Answer) (s : State) : Sure s (concludeWatch w a s) := by
  unfold concludeWatch
  split
  · exact conclude_sure _ _ _
  · exact Sure.refl _

theorem concludeAll_sure (ws : List Nat) (a : Answer) (s : State) : Sure s (concludeAll ws a s) :=
  Sure.foldl (fun t no => conclude_sure no a t) ws s

theorem concludeDuplicate_sure (no block : Nat) (s : State) : Sure s (concludeDuplicate no block s) := enqueue_sure _ _ _

/-! ### Line -/

/-- R140, R160: the unwind output judged afresh fits the press, the line state and the latch. -/
theorem judgeUnwind_press {s : State} (h : s.turret.pressOut = (s.turret.seq == .pressing)) :
    (judgeUnwind s).pressDriven := by
  refine ⟨h, ?_⟩
  rintro (a | a | a)
  · rw [show (judgeUnwind s).turret = s.turret from rfl] at a; simp [judgeUnwind, a]
  · rw [show (judgeUnwind s).line.state = s.line.state from rfl] at a; simp [judgeUnwind, a]
  · rw [show (judgeUnwind s).line.latchShut = s.line.latchShut from rfl] at a; simp [judgeUnwind, a]

theorem judgeUnwind_sure (s : State) : Sure s (judgeUnwind s) :=
  ⟨⟨rfl, rfl, rfl, rfl, rfl, rfl, rfl, rfl, rfl, rfl, rfl⟩, fun h => { h with press := judgeUnwind_press h.press.1 }⟩

theorem judgeLatch_sure (s : State) : Sure s (judgeLatch s) :=
  ⟨⟨rfl, rfl, rfl, rfl, rfl, rfl, rfl, rfl, rfl, rfl, rfl⟩, fun h => { h with press := judgeUnwind_press h.press.1 }⟩

/-- R138: the speed reference a line state drives. -/
theorem Line.reference_eq (l : Line) : l.reference =
    match l.state with
      | .run => l.effective
      | .stopping => l.effective
      | .thread => l.range.min
      | _ => 0 := by
  cases h : l.state <;> simp only [Line.reference, h]

theorem recomputeSpeed_sure (s : State) : Sure s (recomputeSpeed s) :=
  ⟨⟨rfl, rfl, rfl, rfl, rfl, rfl, rfl, rfl, rfl, rfl, rfl⟩, fun h => { h with
    speed := ⟨rfl, Line.reference_eq _⟩ }⟩

theorem trigger_sure (i j : SpindleId) (s : State) : Sure s (trigger i j s) :=
  ⟨⟨rfl, rfl, rfl, rfl, rfl, rfl, rfl, rfl, rfl, rfl, rfl⟩, fun h => { h with press := judgeUnwind_press rfl }⟩

theorem triggerTest_sure (s : State) : Sure s (triggerTest s) := by
  unfold triggerTest
  split
  · exact trigger_sure _ _ _
  · exact Sure.refl _

theorem withdraw_sure (s : State) : Sure s (withdraw s) := Sure.of_view rfl

theorem headAgain_sure (s : State) : Sure s (headAgain s) := Sure.of_view rfl

theorem reportReady_sure (s : State) : Sure s (reportReady s) := Sure.of_view rfl

theorem placeRun_sure (r : Option Run) (s : State) : Sure s (placeRun r s) := by
  unfold placeRun; split <;> exact Sure.of_view rfl

/-- R63, R64: the head state a line state gives. -/
theorem headStateOf_eq (st : LineState) (panel align : Bool) : headStateOf st panel align =
    match st with
      | .run => if panel then .forming else .flat
      | .stopping => if panel then .forming else .flat
      | .thread => if align then .aligning else .flat
      | _ => .retracted := by
  cases st <;> rfl

/-- The head judged after a change to its record that gives no alignment in progress a new request. -/
theorem judgeHead_of (hd : Head) (s : State)
    (ha : (∀ a, s.head.align = some a → a.entry = none) → ∀ a, hd.align = some a → a.entry = none := by exact id) :
    Sure s (judgeHead { s with head := hd }) :=
  ⟨⟨rfl, rfl, rfl, rfl, rfl, rfl, rfl, rfl, rfl, rfl, rfl⟩, fun h => { h with
    head := headStateOf_eq _ _ _
    held := heldInReady_of h.held rfl (fun k => ⟨k.1, k.2.1, k.2.2.1, ⟨ha k.2.2.2.1.1, k.2.2.2.1.2⟩, k.2.2.2.2⟩) }⟩

theorem judgeHead_sure (s : State) : Sure s (judgeHead s) := judgeHead_of s.head s

/-- What a change of line state does at the head leaves everything else, and the head's panel and alignment in progress. -/
theorem headLine_shape (st : LineState) (s : State) :
    ∃ hd sv sl, headLine st s = { s with head := hd, line.starved := sv, line.stall := sl } ∧
      hd.panel = s.head.panel ∧ hd.align = s.head.align := by
  cases st
  case stopping =>
    simp only [headLine, headStopping, placeRun]
    split <;> split <;> (try split) <;> exact ⟨_, _, _, rfl, rfl, rfl⟩
  case thread =>
    simp only [headLine, placeRun]
    split <;> exact ⟨_, _, _, rfl, rfl, rfl⟩
  all_goals exact ⟨_, _, _, rfl, rfl, rfl⟩

theorem lineTo_inv {s : State} (h : Inv s) (st : LineState) (x : Holds) (hd : st = .hold → x ≠ Holds.empty)
    (hr : st = .starting ∨ st = .run → x = Holds.empty) (c : Option HaltCause) (hs : Halts)
    (hc : (c.isSome ↔ st = .halt) ∧ (st ≠ .halt → hs = Halts.empty)) :
    Inv (lineTo st { s with line.holds := x, line.cause := c, line.halts := hs }) := by
  unfold lineTo
  refine (triggerTest_sure _).inv ?_
  simp only
  obtain ⟨hd', sv, sl, e, hp, ha⟩ := headLine_shape st
    { s with line.cause := c, line.halts := hs, line.state := st, line.holds := x.entering st
             line.deadline := deadlineIn s.line.deadline st }
  rw [e]
  constructor
  · exact h.mem
  · exact ⟨h.shape.1, h.shape.2.1, by simpa [judgeUnwind, driveSpeed, chestLine, reportReady, judgeHead] using h.shape.2.2.1,
      h.shape.2.2.2⟩
  · exact h.trial
  · exact h.store
  · exact h.range
  · exact ⟨h.speed.1, Line.reference_eq _⟩
  · exact judgeUnwind_press h.press.1
  · exact h.rolls
  · exact h.tags
  · exact h.table
  · refine heldInReady_of h.held rfl (fun k => ⟨k.1, k.2.1, k.2.2.1, ⟨?_, k.2.2.2.1.2⟩, k.2.2.2.2⟩)
    intro a e
    exact k.2.2.2.1.1 a (ha.symm.trans e)
  · simp only [State.headFollows, judgeUnwind, driveSpeed, chestLine, reportReady, judgeHead, headStateOf]
    cases st <;> rfl
  · simp only [State.holdsFit, judgeUnwind, driveSpeed, chestLine, reportReady, judgeHead]
    cases st <;> simp_all [Holds.entering]
  · exact ⟨hc.1, hc.2⟩

theorem lineTo_same (st : LineState) (s : State) : Same s (lineTo st s) := by
  unfold lineTo
  simp only
  refine Same.trans ?_ (triggerTest_sure _).same
  obtain ⟨hd', sv, sl, e, _, _⟩ := headLine_shape st
    { s with line.state := st, line.holds := s.line.holds.entering st, line.deadline := deadlineIn s.line.deadline st }
  rw [e]
  exact ⟨rfl, rfl, rfl, rfl, rfl, rfl, rfl, rfl, rfl, rfl, rfl⟩

/-- Outside HALT no halt cause stands. -/
theorem Inv.no_cause {s : State} (h : Inv s) (ho : s.line.state ≠ .halt) : s.line.cause = none := by
  have := h.halts.1
  cases e : s.line.cause with
  | none => rfl
  | some c => rw [e] at this; simp at this; exact absurd this ho

/-- A change to a state other than HALT, from one other than HALT. -/
theorem lineTo_sure (st : LineState) (s : State) (hd : Inv s → st = .hold → s.line.holds ≠ Holds.empty)
    (hr : Inv s → st = .starting ∨ st = .run → s.line.holds = Holds.empty) (hn : st ≠ .halt) (ho : Inv s → s.line.state ≠ .halt) :
    Sure s (lineTo st s) := by
  refine ⟨lineTo_same st s, fun h => ?_⟩
  exact lineTo_inv h st s.line.holds (hd h) (hr h) s.line.cause s.line.halts ⟨by simp [h.no_cause (ho h), hn], fun _ => h.halts.2 (ho h)⟩

/-- An operation that leaves the halt cause takes a line outside HALT to one outside HALT. -/
theorem Sure.no_halt {s t : State} (a : Sure s t) (h : Inv s) (ho : s.line.state ≠ .halt) : t.line.state ≠ .halt := by
  intro e
  have := (a.inv h).halts.1.2 e
  rw [a.same.cause, h.no_cause ho] at this
  simp at this

/-- In STARTING no hold reason stands. -/
theorem Inv.holds_starting {s : State} (h : Inv s) (e : s.line.state = .starting) : s.line.holds = Holds.empty := by
  have := h.holds; simp only [State.holdsFit, e] at this; exact this

/-- A start watch that ends. -/
theorem endStart_sure (s : State) : Sure s { s with line.startWatch := none } :=
  Sure.of_less rfl rfl (fun k => ⟨k.1, k.2.1, k.2.2.1, ⟨k.2.2.2.1.1, k.2.2.2.1.2.1, k.2.2.2.1.2.2.1, rfl⟩, k.2.2.2.2⟩)

/-- Stop watches that end. -/
theorem endStops_sure (s : State) : Sure s { s with line.stopWatches := [] } :=
  Sure.of_less rfl rfl (fun k => ⟨k.1, k.2.1, k.2.2.1, ⟨k.2.2.2.1.1, k.2.2.2.1.2.1, rfl, k.2.2.2.1.2.2.2⟩, k.2.2.2.2⟩)

/-- A Splice Now watch that ends. -/
theorem endNow_sure (s : State) : Sure s { s with turret.now := none } :=
  Sure.of_less rfl rfl (fun k => ⟨k.1, k.2.1, k.2.2.1, k.2.2.2.1, rfl, k.2.2.2.2.2⟩)

/-- Awaits that leave the waiting list. -/
theorem filterAwaits_sure (p : Nat → Bool) (s : State) : Sure s { s with web.awaits := s.web.awaits.filter p } :=
  Sure.of_less rfl rfl (fun k => ⟨k.1, k.2.1, k.2.2.1, ⟨k.2.2.2.1.1, by simp [k.2.2.2.1.2.1], k.2.2.2.1.2.2⟩, k.2.2.2.2⟩)

theorem testRun_sure (s : State) : Sure s (testRun s) := by
  unfold testRun
  split
  · rename_i hm
    have e : s.line.state = .starting := by
      simp only [State.mayRun, Bool.and_eq_true, beq_iff_eq] at hm; exact hm.1.1.1.1
    exact ((lineTo_sure .run s (by simp) (fun h _ => h.holds_starting e) (by simp) (fun _ => by simp [e])).trans
      (endStart_sure _)).trans (concludeWatch_sure _ _ _)
  · exact Sure.refl _

theorem enterLine_sure (st : LineState) (s : State) (hd : Inv s → st = .hold → s.line.holds ≠ Holds.empty)
    (hr : Inv s → st = .starting ∨ st = .run → s.line.holds = Holds.empty) (hn : st ≠ .halt) (ho : Inv s → s.line.state ≠ .halt) :
    Sure s (enterLine st s) :=
  (lineTo_sure st s hd hr hn ho).trans (testRun_sure _)

/-- A reason put in makes the set nonempty. -/
theorem Holds.put_ne_empty (h : Holds) (r : HoldReason) : h.put true r ≠ Holds.empty := by
  cases r <;> simp [Holds.put, Holds.empty]

/-- A change of the hold-reason set in a state that allows any set. -/
theorem setHolds_sure (x : Holds) (s : State)
    (hx : Inv s → match s.line.state with | .hold => x ≠ Holds.empty | .thread => True | .stopping => True
                                          | _ => x = Holds.empty) :
    Sure s { s with line.holds := x } :=
  ⟨⟨rfl, rfl, rfl, rfl, rfl, rfl, rfl, rfl, rfl, rfl, rfl⟩, fun h => { h with holds := hx h }⟩

theorem holds_same (x : Holds) (s : State) : Same s { s with line.holds := x } :=
  ⟨rfl, rfl, rfl, rfl, rfl, rfl, rfl, rfl, rfl, rfl, rfl⟩

/-- A line that enters HOLD with a reason put in, or STARTING with none left. -/
theorem lineHolds_sure (st : LineState) (x : Holds) (s : State) (hd : st = .hold → x ≠ Holds.empty)
    (hr : st = .starting ∨ st = .run → x = Holds.empty) (hn : st ≠ .halt) (ho : Inv s → s.line.state ≠ .halt) :
    Sure s (lineTo st { s with line.holds := x }) :=
  ⟨(holds_same x s).trans (lineTo_same st _), fun h =>
    lineTo_inv h st x hd hr s.line.cause s.line.halts ⟨by simp [h.no_cause (ho h), hn], fun _ => h.halts.2 (ho h)⟩⟩

theorem raiseReason_sure (r : HoldReason) (s : State) : Sure s (raiseReason r s) := by
  unfold raiseReason
  simp only
  split
  · rename_i e; exact lineHolds_sure .hold _ s (fun _ => Holds.put_ne_empty _ _) (by simp) (by simp) (fun _ => by simp [e])
  · rename_i e; exact lineHolds_sure .hold _ s (fun _ => Holds.put_ne_empty _ _) (by simp) (by simp) (fun _ => by simp [e])
  · rename_i e; exact setHolds_sure _ s (fun _ => by rw [e]; exact Holds.put_ne_empty _ _)
  · rename_i e; exact setHolds_sure _ s (fun _ => by rw [e]; trivial)
  · rename_i e; exact setHolds_sure _ s (fun _ => by rw [e]; trivial)
  · exact Sure.refl _

/-- No hold reason stands in the empty set. -/
theorem Holds.empty_has (r : HoldReason) : Holds.empty.has r = false := by cases r <;> rfl

theorem clearReason_sure (r : HoldReason) (s : State) : Sure s (clearReason r s) := by
  unfold clearReason
  split
  · rename_i hr
    simp only
    split
    · rename_i hh
      refine Sure.trans ?_ (testRun_sure _)
      exact lineHolds_sure .starting _ s (by simp) (fun _ => hh.2) (by simp) (fun _ => by simp [show s.line.state = .hold from hh.1])
    · rename_i hh
      refine setHolds_sure _ s (fun h => ?_)
      have hf := h.holds
      simp only [State.holdsFit] at hf
      cases e : s.line.state <;> simp only [e] at hf ⊢
      case hold => exact fun he => hh ⟨e, he⟩
      all_goals (first | trivial | (rw [hf, Holds.empty_has] at hr; exact absurd hr (by simp)))
  · exact Sure.refl _

/-! ### Ceiling -/

theorem heatTest_sure (s : State) : Sure s (heatTest s) := by
  unfold heatTest
  exact Sure.ite (raiseReason_sure _ _) (Sure.ite (clearReason_sure _ _) (Sure.refl _))

theorem publish_sure (s : State) : Sure s (publish s) := by
  have a : Sure s (recomputeSpeed { s with line.ceiling := s.ceilingNow.1, line.limiting := s.ceilingNow.2 }) :=
    ⟨⟨rfl, rfl, rfl, rfl, rfl, rfl, rfl, rfl, rfl, rfl, rfl⟩, fun h => { h with
      speed := ⟨rfl, Line.reference_eq _⟩ }⟩
  exact (a.trans (heatTest_sure _)).trans (testRun_sure _)

theorem judgePoint_sure (s : State) : Sure s (judgePoint s) := Sure.of_view rfl

theorem judgeSeq_sure (s : State) : Sure s (judgeSeq s) := by
  unfold judgeSeq
  split
  · exact Sure.refl _
  · rename_i hs
    refine ⟨⟨rfl, rfl, rfl, rfl, rfl, rfl, rfl, rfl, rfl, rfl, rfl⟩, fun h => { h with press := ⟨?_, ?_⟩ }⟩
    · have e : s.turret.pressOut = false := by rw [h.press.1]; simp [hs]
      rw [show ({ s with turret.seq := if s.wanted = true then SpliceState.pending else .idle } : State).turret.pressOut =
        s.turret.pressOut from rfl, e]
      cases s.wanted <;> rfl
    · rintro (a | a)
      · cases hw : s.wanted <;> simp [hw] at a
      · exact h.press.2 (.inr a)

theorem changeWishes_sure {f : State → State} {s : State} (hf : Sure s (f s)) : Sure s (changeWishes f s) := by
  unfold changeWishes
  refine (hf.trans (judgeSeq_sure _)).trans (Sure.trans ?_ (triggerTest_sure _))
  exact Sure.ite (Sure.refl _) (publish_sure _)

theorem setHeadWish_sure (b : Bool) (s : State) : Sure s (setHeadWish b s) := by
  unfold setHeadWish
  exact Sure.ite (Sure.refl _) (changeWishes_sure (Sure.of_view rfl))

end Sys2Proof.Machine
end

