-- ==== Sys2Proof/Laws/WebSound.lean ====
section
/-! SUPPORT. What the operations of the web map and the steam chest keep (Web.lean, Chest.lean): one lemma per operation. -/

namespace Sys2Proof.Machine

/-! ### Web -/

theorem reportPlaces_sure (s : State) : Sure s (reportPlaces s) := by
  unfold reportPlaces
  refine Sure.ite ?_ (headAgain_sure s)
  refine Sure.trans ?_ (clearReason_sure _ _)
  exact Sure.of_view rfl

theorem reportRecord_sure (s : State) : Sure s (reportRecord s) :=
  (headAgain_sure s).trans (clearReason_sure _ _)

theorem reportCandidate_sure (s : State) : Sure s (reportCandidate s) :=
  Sure.ite ((headAgain_sure s).trans (clearReason_sure _ _)) (Sure.refl s)

theorem removeRoll_sure (tag : Nat) (s : State) : Sure s (removeRoll tag s) := filterRolls_sure _ s

theorem endRollRetirement_sure (tag : Nat) (s : State) : Sure s (endRollRetirement tag s) := by
  unfold endRollRetirement
  split
  · exact Sure.ite ((removeRoll_sure _ _).trans (concludeWatch_sure _ _ _)) (Sure.refl s)
  · exact Sure.refl s

theorem addRef_sure (tag : Nat) (s : State) : Sure s (addRef tag s) :=
  mapRoll_sure tag (f := fun r => { r with refs := r.refs + 1 }) (fun _ => rfl) (fun _ h => h) s

theorem dropRef_sure (tag : Nat) (s : State) : Sure s (dropRef tag s) :=
  (mapRoll_sure tag (f := fun r => { r with refs := r.refs - 1 }) (fun _ => rfl) (fun _ h => h) s).trans (endRollRetirement_sure _ _)

theorem closeNewest_sure (s : State) : Sure s (closeNewest s) := by
  unfold closeNewest
  split
  · exact Sure.refl s
  · refine Sure.ite (Sure.refl s) (Sure.ite ?_ (Sure.of_view rfl))
    refine Sure.trans ?_ (reportPlaces_sure _)
    refine Sure.trans ?_ (dropRef_sure _ _)
    exact Sure.of_view rfl

theorem reopenNewest_sure (s : State) : Sure s (reopenNewest s) := by
  unfold reopenNewest
  split
  · exact Sure.refl s
  · exact Sure.of_view rfl

theorem appendSeg_sure (kind : SegKind) (roll : Nat) (panel : Option Nat) (s : State) : Sure s (appendSeg kind roll panel s) := by
  unfold appendSeg
  exact ((addRef_sure roll s).trans (closeNewest_sure _)).trans (Sure.of_view rfl)

theorem openSeg_sure {kind : SegKind} {roll : Nat} {panel : Option Nat} {s t : State} (h : openSeg kind roll panel s = some t) :
    Sure s t := by
  unfold openSeg at h
  split at h
  · cases h; exact reopenNewest_sure s
  · split at h
    · cases h
    · cases h; exact appendSeg_sure _ _ _ s

theorem useDown_sure (n : Nat) (s : State) : Sure s (useDown n s) := by
  unfold useDown
  have a := mapSlot_sure n (f := fun y => { y with uses := y.uses - 1 }) (fun _ _ h => h) s
  simp only
  split
  · rename_i hc
    refine Sure.trans ?_ (concludeWatch_sure _ _ _)
    by_cases h0 : n = 0
    · subst h0
      refine ⟨⟨rfl, rfl, rfl, rfl, rfl, rfl, rfl, rfl, rfl, rfl, rfl⟩, fun h => ?_⟩
      exact absurd hc.1 (by rw [h.slot_trial.1]; simp)
    · exact a.trans (mapSlot_sure n (fun hn => absurd hn h0) _ (fun _ hx => ⟨hx.1, rfl⟩))
  · exact a

theorem removeOrder_sure (o : Order) (s : State) : Sure s (removeOrder o s) := by
  unfold removeOrder
  exact (filterOrders_sure _ s).trans (useDown_sure _ _)

theorem completeOrder_sure (tag : Nat) (s : State) : Sure s (completeOrder tag s) := by
  unfold completeOrder
  split
  · exact Sure.ite ((removeOrder_sure _ s).trans (concludeWatch_sure _ _ _)) (Sure.refl s)
  · exact Sure.refl s

/-- An order found in the queue is one of its orders. -/
theorem mem_of_findOrder {s : State} {tag : Nat} {o : Order} (h : s.findOrder tag = some o) : o ∈ s.orders :=
  List.mem_of_find?_eq_some h

/-- R57: a count changes no watch. -/
theorem counted_watch (o : Order) (v : Verdict) : (o.counted v).watch = o.watch := by cases v <;> rfl

/-- The order of a tag replaced by one with its watch. -/
theorem replaceOrder_sure {tag : Nat} {o x : Order} {s : State} (h : s.findOrder tag = some o) (hw : x.watch = o.watch) :
    Sure s (s.mapOrder tag (fun _ => x)) :=
  setOrders_sure _ s (fun k y hy => by
    obtain ⟨z, hz, rfl⟩ := List.mem_map.1 hy
    split
    · rw [hw]; exact k o (mem_of_findOrder h)
    · exact k z hz)

theorem orderExit_sure (tag : Nat) (v : Verdict) (r : Reasons) (s : State) : Sure s (orderExit tag v r s) := by
  unfold orderExit
  split
  · exact Sure.refl s
  · rename_i o ho
    have hw : (o.counted v).remade.watch = o.watch := counted_watch o v
    simp only
    refine Sure.ite (Sure.ite ?_ (replaceOrder_sure ho hw)) ((replaceOrder_sure ho (counted_watch o v)).trans (completeOrder_sure _ _))
    refine Sure.trans (setOrders_sure _ s (fun k x hx => ?_)) (reportCandidate_sure _)
    rcases List.mem_append.1 hx with hx | hx
    · exact k x (List.mem_filter.1 hx).1
    · rw [List.mem_singleton.1 hx, hw]; exact k o (mem_of_findOrder ho)

theorem freePanel_sure (id : Nat) (s : State) : Sure s (freePanel id s) := by
  unfold freePanel
  refine Sure.trans ?_ (reportRecord_sure _)
  exact Sure.of_view rfl

theorem deliver_sure (no id : Nat) (s : State) : Sure s (deliver no id s).1 := by
  unfold deliver
  split
  · split
    · simp only
      split
      · exact (conclude_sure _ _ _).trans (freePanel_sure _ _)
      · exact conclude_sure _ _ _
    · exact Sure.refl s
  · exact Sure.refl s

theorem offerTo_sure (l : List Nat) (id : Nat) (s : State) : Sure s (offerTo l id s) := by
  induction l generalizing s with
  | nil => exact Sure.refl s
  | cons no rest ih =>
    have a : Sure s (deliver no id { s with web.awaits := s.web.awaits.filter (fun x => x != no) }).1 :=
      (filterAwaits_sure _ s).trans (deliver_sure _ _ _)
    unfold offerTo
    simp only
    split
    · exact a
    · exact a.trans (ih _)

theorem exitPanel_sure (p : Panel) (r : Reasons) (s : State) : Sure s (exitPanel p r s) := by
  unfold exitPanel
  simp only
  refine Sure.trans ?_ (offerTo_sure _ _ _)
  refine Sure.trans ?_ (orderExit_sure _ _ _ _)
  exact Sure.of_view rfl

theorem exitSeg_sure (reasons : State → Panel → Reasons) (s : State) (g : Segment) : Sure s (exitSeg reasons s g) := by
  unfold exitSeg
  split
  · split
    · exact exitPanel_sure _ _ _
    · exact Sure.refl s
  · exact Sure.refl s

theorem removedSeg_sure (reasons : State → Panel → Reasons) (s : State) (g : Segment) : Sure s (removedSeg reasons s g) :=
  (exitSeg_sure reasons s g).trans (dropRef_sure _ _)

theorem removeBelow_sure (bound : Nat) (s : State) : Sure s (removeBelow bound s) := by
  unfold removeBelow
  simp only
  have a : Sure s ((s.web.segs.takeWhile (Segment.below bound)).foldl (removedSeg State.reasonsOf)
      { s with web.segs := s.web.segs.dropWhile (Segment.below bound) }) := by
    refine Sure.trans ?_ (Sure.foldl (removedSeg_sure State.reasonsOf) _ _)
    exact Sure.of_view rfl
  exact Sure.ite a (a.trans (reportPlaces_sure _))

theorem creditPanel_sure (occupant dose peak : Nat) (s : State) : Sure s (creditPanel occupant dose peak s) := by
  unfold creditPanel
  split
  · split
    · exact mapPanel_sure _ _ _
    · exact Sure.refl s
  · exact Sure.refl s

theorem cellExit_sure (c : Cell) (s : State) : Sure s (cellExit c s) := by
  unfold cellExit
  simp only
  have a : ∀ f : CellFill, Sure s (if f.second = f.first then creditPanel f.first f.dose f.peak s
      else creditPanel f.second f.dose f.peak (creditPanel f.first f.dose f.peak s)) := fun f =>
    Sure.ite (creditPanel_sure _ _ _ _) ((creditPanel_sure _ _ _ _).trans (creditPanel_sure _ _ _ _))
  cases c.fill with
  | none => cases c.lower with
    | none => exact Sure.refl s
    | some b => exact removeBelow_sure _ _
  | some f => cases c.lower with
    | none => exact a f
    | some b => exact (a f).trans (removeBelow_sure _ _)

/-! ### Chest -/

theorem cells_sure (l : List Cell) (s : State) (hl : s.chest.cells.length = 64 → l.length = 64) :
    Sure s { s with chest.cells := l } :=
  ⟨⟨rfl, rfl, rfl, rfl, rfl, rfl, rfl, rfl, rfl, rfl, rfl⟩,
    fun h => { h with shape := ⟨h.shape.1, h.shape.2.1, h.shape.2.2.1, hl h.shape.2.2.2⟩ }⟩

theorem shiftCells_sure (s : State) : Sure s (shiftCells s) := by
  unfold shiftCells
  refine (cells_sure (⟨some s.chest.entry, s.cellFill s.chest.entry⟩ :: s.chest.cells.dropLast) s ?_).trans (Sure.of_view rfl)
  intro h; simp [h]

theorem crossing_sure (s : State) : Sure s (crossing s) := by
  have a : Sure s (shiftCells (cellExit s.lastCell { s with chest.cells := s.chest.cells.dropLast ++ [⟨none, none⟩] })) := by
    refine Sure.trans ?_ (shiftCells_sure _)
    refine Sure.trans ?_ (cellExit_sure _ _)
    exact cells_sure _ s (fun h => by simp [h])
  unfold crossing
  exact Sure.ite a (a.trans (publish_sure _))

theorem crossings_sure (n : Nat) (s : State) : Sure s (crossings n s) := by
  induction n generalizing s with
  | zero => exact Sure.refl s
  | succ n ih => exact (crossing_sure s).trans (ih _)

theorem reportOutput_sure (len : Nat) (s : State) : Sure s (reportOutput len s) := by
  unfold reportOutput
  refine Sure.trans ?_ (crossings_sure _ _)
  exact Sure.of_view rfl

theorem creditZone_sure (z : ZoneId) (s : State) : Sure s (creditZone z s) := cells_sure _ s (fun h => by simp [h])

theorem classifyZone_sure (z : ZoneId) (x : Sample) (s : State) : Sure s (classifyZone z x s) := mapZone_sure _ _ _

theorem workZone_sure (z : ZoneId) (hot : Bool) (s : State) : Sure s (workZone z hot s) := by
  unfold workZone
  refine Sure.trans ?_ (mapZone_sure _ _ _)
  exact Sure.ite (Sure.refl s) (creditZone_sure z s)

end Sys2Proof.Machine
end

