-- ==== Sys2Proof/Laws/HeadSound.lean ====
section
/-! SUPPORT. What the operations of the pleating head keep (Head.lean): one lemma per operation, up to `settle`, with which an event
ends. -/

namespace Sys2Proof.Machine

/-! ### Draws and runs -/

theorem dropMarks_sure (s : State) : Sure s (dropMarks s) := Sure.of_view rfl

theorem moveMeter_sure (s : State) : Sure s (moveMeter s) := by
  unfold moveMeter
  split
  · exact Sure.of_view rfl
  · exact Sure.refl s

/-- A change of the accumulator that raises it no further. -/
theorem lowerStore_sure (a : Nat) (s : State) (h : a ≤ s.line.store) : Sure s { s with line.store := a } :=
  ⟨⟨rfl, rfl, rfl, rfl, rfl, rfl, rfl, rfl, rfl, rfl, rfl⟩,
    fun i => { i with store := fun k hk => Nat.le_trans h (i.store k hk) }⟩

theorem takeDraw_sure (u : DrawUnit) (s : State) : Sure s (takeDraw u s) := by
  unfold takeDraw
  simp only
  refine Sure.trans ?_ (triggerTest_sure _)
  refine Sure.trans ?_ (judgeLatch_sure _)
  refine Sure.trans ?_ (dropMarks_sure _)
  have a : Sure s { s with
      line.store := s.line.store - u.draw, line.starved := false, line.stall := none
      head.f := s.head.f + u.draw, head.wanted := none, head.flight := some ⟨u, 0, false, none⟩
      head.blade := if u.strokes.isEmpty then s.head.blade else u.strokes } :=
    (lowerStore_sure (s.line.store - u.draw) s (Nat.sub_le _ _)).trans (Sure.of_view rfl)
  exact Sure.ite (a.trans (moveMeter_sure _)) (a.trans (Sure.of_view rfl))

theorem starve_sure (s : State) : Sure s (starve s) := Sure.of_view rfl

theorem settleWanted_sure (old : Option DrawUnit) (s : State) : Sure s (settleWanted old s) := by
  unfold settleWanted
  split
  · exact withdraw_sure s
  · exact Sure.ite (takeDraw_sure _ s) (Sure.ite (Sure.refl s) (starve_sure s))

theorem openRun_sure (r : Run) (s : State) : Sure s (openRun r s).1 := by
  unfold openRun
  split
  · exact Sure.refl s
  · split
    · exact Sure.refl s
    · split
      · rename_i h; exact (openSeg_sure h).trans (Sure.of_view rfl)
      · refine Sure.trans ?_ (raiseReason_sure _ _)
        exact Sure.of_view rfl

theorem wantChunk_sure (r : Run) (seek : Option Nat) (s : State) : Sure s (wantChunk r seek s) := by
  unfold wantChunk
  split
  · exact Sure.refl s
  · simp only
    have a : Sure s (openRun r { s with head.run := some r }).1 := by
      refine Sure.trans ?_ (openRun_sure _ _)
      exact Sure.of_view rfl
    exact Sure.ite (a.trans (Sure.of_view rfl)) a

theorem wantTrial_sure (r : Run) (x : Align) (s : State) : Sure s (wantTrial r x s) := by
  unfold wantTrial
  split
  · exact Sure.refl s
  · simp only
    have a : Sure s (openRun r { s with head.run := some r }).1 := by
      refine Sure.trans ?_ (openRun_sure _ _)
      exact Sure.of_view rfl
    exact Sure.ite (a.trans (Sure.of_view rfl)) a

/-! ### Panels and orders -/

theorem releaseOrder_sure (tag : Nat) (s : State) : Sure s (releaseOrder tag s) := by
  unfold releaseOrder
  refine Sure.trans ?_ (completeOrder_sure _ _)
  exact (mapOrder_sure tag (fun o => { o with m := 0, state := .awaitingExit, page := none }) s).trans (Sure.of_view rfl)

theorem orderPanelComplete_sure (tag : Nat) (s : State) : Sure s (orderPanelComplete tag s) := by
  unfold orderPanelComplete
  simp only
  have a := mapOrder_sure tag (fun o => { o with m := o.m - 1, formed := o.formed + 1 }) s
  split
  · exact Sure.ite (a.trans (releaseOrder_sure _ _)) a
  · exact a

theorem orderPanelCut_sure (tag : Nat) (s : State) : Sure s (orderPanelCut tag s) := by
  unfold orderPanelCut
  split
  · exact Sure.ite (releaseOrder_sure _ s) (Sure.refl s)
  · exact Sure.refl s

theorem leaveForming_sure (s : State) : Sure s (leaveForming s) := judgeHead_of _ s

theorem panelComplete_sure (id : Nat) (s : State) : Sure s (panelComplete id s) := by
  unfold panelComplete
  simp only
  have a : Sure s (leaveForming (orderPanelComplete (s.panelOrder id)
      ((closeNewest s).mapPanel id (fun p => { p with state := .inPath })))) := by
    refine Sure.trans ?_ (leaveForming_sure _)
    refine Sure.trans ?_ (orderPanelComplete_sure _ _)
    exact (closeNewest_sure s).trans (mapPanel_sure _ _ _)
  split
  · exact a
  · exact a
  · exact a.trans (Sure.of_view rfl)

theorem cutPanel_sure (id : Nat) (s : State) : Sure s (cutPanel id s) := by
  unfold cutPanel
  simp only
  refine Sure.trans ?_ (leaveForming_sure _)
  refine Sure.trans (t := orderPanelCut (s.panelOrder id)
    ((closeNewest s).mapPanel id (fun p => { p with state := .inPath, cut := true }))) ?_ (Sure.of_view rfl)
  exact ((closeNewest_sure s).trans (mapPanel_sure _ _ _)).trans (orderPanelCut_sure _ _)

theorem finishFlight_sure (s : State) : Sure s (finishFlight s) := by
  unfold finishFlight
  split
  · refine Sure.trans ?_ (reportOutput_sure _ _)
    exact Sure.of_view rfl
  · exact Sure.refl s

theorem markLate_sure (s : State) : Sure s (markLate s) := by
  unfold markLate
  split
  · exact Sure.of_view rfl
  · exact Sure.refl s

theorem cutByRequest_sure (s : State) : Sure s (cutByRequest s) := by
  unfold cutByRequest
  split
  · exact Sure.refl s
  · rename_i id _
    simp only
    have a : Sure s (headAgain (cutPanel id (finishFlight (markLate (withdraw s))))) :=
      ((((withdraw_sure s).trans (markLate_sure _)).trans (finishFlight_sure _)).trans (cutPanel_sure _ _)).trans (headAgain_sure _)
    refine Sure.trans ?_ (triggerTest_sure _)
    split
    · exact a.trans (Sure.of_view rfl)
    · exact a
    · exact a.trans (Sure.of_view rfl)

/-! ### Alignment and the completion of units -/

theorem misalign_sure (s : State) : Sure s (misalign s) := Sure.of_view rfl

theorem endAlign_sure (s : State) : Sure s (endAlign s) := by
  unfold endAlign
  simp only
  have a : Sure s (if s.newestSeg.any (fun g => g.kind == .trial) then closeNewest s else s) :=
    Sure.ite (closeNewest_sure s) (Sure.refl s)
  generalize (if s.newestSeg.any (fun g => g.kind == .trial) then closeNewest s else s) = t at a ⊢
  have b : Sure t (if t.head.wanted.isSome ∧ t.head.passage = .none then withdraw t else t) := Sure.ite (withdraw_sure t) (Sure.refl t)
  generalize (if t.head.wanted.isSome ∧ t.head.passage = .none then withdraw t else t) = u at b ⊢
  have c := judgeHead_of { u.head with
    align := none
    flight := u.head.flight.map (fun f => { f with unit := { f.unit with trial := none } }) } u (fun _ => nofun)
  have d := (a.trans b).trans c
  split
  · exact (d.trans (placeRun_sure _ _)).trans (headAgain_sure _)
  · exact d.trans (Sure.of_view rfl)

theorem finishAlign_sure (a : Align) (ans : Answer) (s : State) : Sure s (finishAlign a ans s) := by
  unfold finishAlign
  refine Sure.trans ?_ (endAlign_sure _)
  split
  · exact conclude_sure _ _ _
  · exact Sure.refl s

/-- The alignment in progress changed, its request as before. -/
theorem setAlign_sure {a b : Align} {hd : Head} {s : State} (ha : s.head.align = some a) (hb : hd.align = some b)
    (he : b.entry = a.entry) (h1 : hd.state = s.head.state) (h2 : hd.panel = s.head.panel) : Sure s { s with head := hd } :=
  Sure.of_less (by simp [State.base, ha, hb, h1, h2]) rfl (fun k => ⟨k.1, k.2.1, k.2.2.1,
    ⟨fun x hx => by rw [hb] at hx; cases hx; rw [he]; exact k.2.2.2.1.1 a ha, k.2.2.2.1.2⟩, k.2.2.2.2⟩)

theorem trialOutcome_sure (step : Nat) (result : Crease) (s : State) : Sure s (trialOutcome step result s) := by
  unfold trialOutcome
  split
  · exact Sure.refl s
  · rename_i a ha
    simp only
    split
    · refine Sure.trans ?_ (finishAlign_sure _ _ _)
      exact setAlign_sure ha rfl rfl rfl rfl
    · split
      · refine Sure.trans ?_ (finishAlign_sure _ _ _)
        exact setAlign_sure ha rfl rfl rfl rfl
      · exact setAlign_sure ha rfl rfl rfl rfl

theorem completeUnit_sure (fl : Flight) (s : State) : Sure s (completeUnit fl s) := by
  unfold completeUnit
  simp only
  have a : Sure s (reportOutput fl.unit.output (headAgain { s with head.flight := none })) := by
    refine Sure.trans ?_ (reportOutput_sure _ _)
    exact Sure.of_view rfl
  split
  · split
    · exact Sure.ite (a.trans (panelComplete_sure _ _)) a
    · exact a
  · split
    · exact a.trans (trialOutcome_sure _ _ _)
    · exact a

theorem completeIfDone_sure (s : State) : Sure s (completeIfDone s) := by
  unfold completeIfDone
  split
  · exact Sure.ite (completeUnit_sure _ s) (Sure.refl s)
  · exact Sure.refl s

theorem countTravel_sure (n : Nat) (s : State) : Sure s (countTravel n s) := by
  unfold countTravel
  split
  · exact Sure.refl s
  · simp only
    refine Sure.trans ?_ (completeIfDone_sure _)
    exact Sure.of_view rfl

theorem meterTravel_sure (n : Nat) (s : State) : Sure s (meterTravel n s) :=
  Sure.ite (countTravel_sure n s) (Sure.of_view rfl)

theorem countFolds_sure (rs : List Crease) (s : State) : Sure s (countFolds rs s) := by
  unfold countFolds
  split
  · exact Sure.refl s
  · exact Sure.of_view rfl

/-- The last step of a halt at the head. -/
theorem haltRest_sure (v : State) :
    Sure v (judgeHead { v with
      head.run := keepRun [.guard, .splice] v.head.run, head.suspended := none, head.drainSpent := false
      head.aligned := false }) :=
  judgeHead_of _ v

theorem haltHead_sure (s : State) : Sure s (haltHead s) := by
  have a : Sure s (finishFlight { withdraw s with head.blade := [], head.late := ⟨0, 0⟩ }) := by
    refine Sure.trans ?_ (finishFlight_sure _)
    exact Sure.of_view rfl
  have b : ∀ t : State, Sure t (match t.head.panel with
      | some id => { cutPanel id t with head.gapOwed := true }
      | none => t) := by
    intro t
    split
    · exact (cutPanel_sure _ t).trans (Sure.of_view rfl)
    · exact Sure.refl t
  have c : ∀ u : State, Sure u (match u.head.align with
      | some x => finishAlign x (haltedAnswer u.line.cause) u
      | none => u) := by
    intro u
    split
    · exact finishAlign_sure _ _ _
    · exact Sure.refl u
  unfold haltHead
  simp only
  exact ((a.trans (b _)).trans (c _)).trans (haltRest_sure _)

/-! ### Binding and the panel start -/

theorem failBinding_sure (o : Order) (a : Answer) (s : State) : Sure s (failBinding o a s) :=
  (removeOrder_sure o s).trans (concludeWatch_sure _ _ _)

theorem flipSlot_sure (n : Nat) (s : State) : Sure s (flipSlot n s) :=
  mapSlot_sure n (fun _ x hx => by simp [hx.2.2.2.2.1]; exact hx) s (fun _ h => by split <;> exact h)

theorem bindOrder_sure (o : Order) (letter : Letter) (s : State) : Sure s (bindOrder o letter s) :=
  (mapOrder_sure o.tag (fun x => { x with state := .forming, page := some letter }) s).trans (Sure.of_view rfl)

theorem askOrder_sure (n : Nat) (s : State) : Sure s (askOrder n s) := by
  induction n generalizing s with
  | zero => exact Sure.refl s
  | succ n ih =>
    unfold askOrder
    split
    · exact Sure.refl s
    · rename_i o _
      simp only
      have a := flipSlot_sure o.pattern s
      split
      · exact (a.trans (failBinding_sure _ _ _)).trans (ih _)
      · split
        · exact (a.trans (failBinding_sure _ _ _)).trans (ih _)
        · exact a.trans (bindOrder_sure _ _ _)

theorem startPanel_sure (b : Bound) (p : Page) (roll : Nat) (self : Bool) (s : State) : Sure s (startPanel b p roll self s) := by
  unfold startPanel
  simp only
  refine Sure.trans ?_ (triggerTest_sure _)
  refine Sure.trans ?_ (mapOrder_sure _ _ _)
  refine Sure.trans ?_ (appendSeg_sure _ _ _ _)
  refine Sure.trans (t := { s with
    web.panels := s.web.panels ++ [s.startRecord b p (p.meter b.letter b.size s.bladeK) roll self]
    web.nextPanel := s.idAfter s.web.nextPanel }) (Sure.of_view rfl) ?_
  exact judgeHead_of _ _

theorem registered_sure (r : Marks) (s : State) : Sure s (registered r s) := Sure.of_view rfl

theorem wantFold_sure (s : State) : Sure s (wantFold s) := by
  unfold wantFold
  split
  · exact Sure.of_view rfl
  · exact Sure.refl s

theorem startOrSeek_sure (b : Bound) (p : Page) (roll : Nat) (s : State) : Sure s (startOrSeek b p roll s) := by
  unfold startOrSeek
  split
  · exact (startPanel_sure _ _ _ _ s).trans (wantFold_sure _)
  · simp only
    have a : Sure s (if s.head.counting then s else { s with head.expected := some (s.head.expected.getD s.head.f) }) :=
      Sure.ite (Sure.refl s) (Sure.of_view rfl)
    split
    · exact ((a.trans (startPanel_sure _ _ _ _ _)).trans (registered_sure _ _)).trans (wantFold_sure _)
    · exact a.trans (wantChunk_sure _ _ _)

theorem startTests_sure (b : Bound) (s : State) : Sure s (startTests b s) := by
  unfold startTests
  split
  · refine Sure.ite (raiseReason_sure _ s) (Sure.ite ?_ ?_)
    · refine Sure.trans ?_ (raiseReason_sure _ _)
      exact Sure.of_view rfl
    · simp only
      have a := setHeadWish_sure (!s.horizon (Page.measure ‹Page› b.size s.bladeK).t) s
      exact Sure.ite a (Sure.ite (a.trans (startOrSeek_sure _ _ _ _)) (a.trans (wantChunk_sure _ _ _)))
  · exact Sure.refl s

/-! ### The boundary -/

theorem beginPassage_sure (s : State) : Sure s (beginPassage s) := by
  unfold beginPassage
  split
  · exact Sure.ite (Sure.of_view rfl) (Sure.refl s)
  · exact Sure.refl s

theorem endGuard_sure (s : State) : Sure s (endGuard s) := by
  unfold endGuard
  split
  · refine Sure.ite ?_ (Sure.refl s)
    refine Sure.trans ?_ (triggerTest_sure _)
    exact Sure.of_view rfl
  · exact Sure.refl s

theorem endSplice_sure (s : State) : Sure s (endSplice s) := by
  unfold endSplice
  split
  · exact Sure.ite (Sure.of_view rfl) (Sure.refl s)
  · exact Sure.refl s

theorem gapStep_sure (s : State) : Sure s (gapStep s) := by
  unfold gapStep
  simp only
  cases s.head.run with
  | none => exact Sure.ite (Sure.of_view rfl) (Sure.refl s)
  | some r =>
    simp only
    split
    · exact Sure.ite (Sure.of_view rfl) (Sure.of_view rfl)
    · exact Sure.ite (Sure.of_view rfl) (Sure.refl s)

/-- The drain of STOPPING ended: the line is in STANDBY. -/
theorem standby_sure (s : State) (h : s.line.state = .stopping) :
    Sure s (concludeAll (lineTo .standby { s with head.run := none }).line.stopWatches done
      { lineTo .standby { s with head.run := none } with line.stopWatches := [] }) := by
  refine Sure.trans ?_ (concludeAll_sure _ _ _)
  have a : Sure s (lineTo .standby { s with head.run := none }) := by
    refine Sure.trans (t := { s with head.run := none }) (Sure.of_view rfl) ?_
    exact lineTo_sure _ _ (by simp) (by simp) (by simp) (fun _ => by simp [h])
  exact a.trans (endStops_sure _)

theorem stopDrain_sure (s : State) (h : s.line.state = .stopping) : Sure s (stopDrain s) := by
  have b : Sure s (wantChunk (newRun .drain (some s.drainLen)) none { s with head.gapOwed := false }) := by
    refine Sure.trans ?_ (wantChunk_sure _ _ _)
    exact Sure.of_view rfl
  unfold stopDrain
  split
  · exact Sure.ite (Sure.ite (standby_sure s h) (wantChunk_sure _ _ _)) b
  · exact b

theorem orderDrain_sure (s : State) : Sure s (orderDrain s) := by
  have a : Sure s (if s.head.drainSpent then raiseReason .noOrder { s with head.run := none }
      else wantChunk (newRun .drain (some s.drainLen)) none s) := by
    refine Sure.ite (Sure.trans (t := { s with head.run := none }) (Sure.of_view rfl) (raiseReason_sure _ _)) (wantChunk_sure _ _ _)
  unfold orderDrain
  simp only
  split
  · refine Sure.ite (Sure.ite ?_ (wantChunk_sure _ _ _)) a
    refine Sure.trans ?_ (raiseReason_sure _ _)
    exact Sure.of_view rfl
  · exact a

theorem orderStep_sure (s : State) : Sure s (orderStep s) := by
  unfold orderStep
  simp only
  have a : Sure s (match s.head.bound with | none => askOrder s.orders.length s | some _ => s) := by
    split
    · exact askOrder_sure _ s
    · exact Sure.refl s
  split
  · exact a.trans (startTests_sure _ _)
  · exact a.trans (orderDrain_sure _)

theorem threadStep_sure (s : State) : Sure s (threadStep s) := by
  unfold threadStep
  split
  · exact wantTrial_sure _ _ s
  · exact wantChunk_sure _ _ s

theorem boundary_sure (s : State) : Sure s (boundary s) := by
  unfold boundary
  split
  · exact Sure.refl s
  · simp only
    have a : Sure s (gapStep (beginPassage (endSplice (endGuard s)))) :=
      (((endGuard_sure s).trans (endSplice_sure _)).trans (beginPassage_sure _)).trans (gapStep_sure _)
    generalize gapStep (beginPassage (endSplice (endGuard s))) = t at a ⊢
    have b : Sure t (match t.line.state with
        | .thread => threadStep t
        | .stopping => stopDrain t
        | _ => orderStep t) := by
      split
      · exact threadStep_sure t
      · rename_i h; exact stopDrain_sure t h
      · exact orderStep_sure t
    split
    · exact Sure.ite (a.trans (wantChunk_sure _ _ _)) (a.trans b)
    · exact a.trans b

theorem headGo_sure (s : State) : Sure s (headGo s) := by
  have w : Sure s { s with head.wanted := none } := Sure.of_view rfl
  unfold headGo
  simp only
  split
  · exact (w.trans (wantFold_sure _)).trans (settleWanted_sure _ _)
  · exact (w.trans (boundary_sure _)).trans (settleWanted_sure _ _)
  · exact (w.trans (boundary_sure _)).trans (settleWanted_sure _ _)
  · exact Sure.refl s

/-- The end of an event keeps every setting and every invariant. -/
theorem settle_sure (s : State) : Sure s (settle s) := by
  unfold settle
  split
  · exact Sure.of_view rfl
  · split
    · exact (headGo_sure s).trans (Sure.of_view rfl)
    · split
      · exact Sure.ite (takeDraw_sure _ s) (Sure.refl s)
      · exact Sure.refl s

end Sys2Proof.Machine
end

