-- ==== Sys2Proof/Laws/RequestSound.lean ====
section
/-! SUPPORT. What the decision of every request keeps (Library.lean, Rolls.lean, Orders.lean, Panels.lean, LineRequests.lean), up to
`decideCall` and the retry of waiting requests. -/

namespace Sys2Proof.Machine

/-! ### Library -/

/-- A lemma that needs the invariants at its start. -/
theorem Sure.of_inv {s t : State} (a : Same s t) (b : Inv s → Sure s t) : Sure s t := ⟨a, fun h => (b h).inv h⟩

/-- What a request in the table does may rest on a READY port. -/
theorem Sure.of_entry {no : Nat} {s t : State} (e : s.holdsEntry no = true) (a : Same s t) (b : s.port.state = .ready → Sure s t) :
    Sure s t := Sure.of_inv a (fun h => b (h.ready_of_entry e))

/-- On a READY port a page fetch is put into a buffer for a slot other than slot 0. -/
theorem setBufA_sure (f : Fetch) (hf : f.slot ≠ 0) (s : State) (hr : s.port.state = .ready) : Sure s { s with lib.bufA := some f } :=
  ⟨⟨rfl, rfl, rfl, rfl, rfl, rfl, rfl, rfl, rfl, rfl, rfl⟩, fun h => { h with
    trial := ⟨h.trial.1, fun g hg => by cases hg; exact hf, h.trial.2.2⟩
    held := heldInReady_ready hr }⟩

theorem setBufB_sure (f : Fetch) (hf : f.slot ≠ 0) (s : State) (hr : s.port.state = .ready) : Sure s { s with lib.bufB := some f } :=
  ⟨⟨rfl, rfl, rfl, rfl, rfl, rfl, rfl, rfl, rfl, rfl, rfl⟩, fun h => { h with
    trial := ⟨h.trial.1, h.trial.2.1, fun g hg => by cases hg; exact hf⟩
    held := heldInReady_ready hr }⟩

theorem beginFetch_same (no n : Nat) (amend : Bool) (s : State) : Same s (beginFetch no n amend s) := by
  unfold beginFetch
  simp only
  split
  · exact ⟨rfl, rfl, rfl, rfl, rfl, rfl, rfl, rfl, rfl, rfl, rfl⟩
  · split
    · exact ⟨rfl, rfl, rfl, rfl, rfl, rfl, rfl, rfl, rfl, rfl, rfl⟩
    · exact (holdWaiting_sure _ _ _).same

theorem beginFetch_sure (no n : Nat) (amend : Bool) (s : State) (hn : n ≠ 0) (e : s.holdsEntry no = true) :
    Sure s (beginFetch no n amend s) := by
  refine Sure.of_entry e (beginFetch_same _ _ _ _) (fun hr => ?_)
  unfold beginFetch
  simp only
  have a := setSlot_sure n (f := fun x => { x with busy := true }) (fun _ _ h => h) s (.inl hr)
  refine Sure.ite ?_ (Sure.ite ?_ (holdWaiting_sure _ _ _))
  · exact (a.trans (setBufA_sure ⟨no, n, amend⟩ hn _ hr)).trans (holdRunning_sure _ _)
  · exact (a.trans (setBufB_sure ⟨no, n, amend⟩ hn _ hr)).trans (holdRunning_sure _ _)

theorem decideDefine_sure (no : Nat) (q : Req) (s : State) (e : s.holdsEntry no = true) : Sure s (decideDefine no q s) := by
  unfold decideDefine
  simp only
  repeat' split
  all_goals first | exact conclude_sure _ _ _ | exact holdWaiting_sure _ _ _ | exact beginFetch_sure _ _ _ _ (by assumption) e

theorem decideAmend_sure (no : Nat) (q : Req) (s : State) (e : s.holdsEntry no = true) : Sure s (decideAmend no q s) := by
  unfold decideAmend
  simp only
  repeat' split
  all_goals first | exact conclude_sure _ _ _ | exact holdWaiting_sure _ _ _ | exact beginFetch_sure _ _ _ _ (by assumption) e

/-- An amended page leaves its slot as free of requests as it was. -/
theorem amendedSlot_idle {x : Slot} {p : Page} {forming : Bool} (h : x.isIdle) : (amendedSlot x p forming).isIdle := by
  unfold amendedSlot
  cases x.live.getD .a <;> cases forming <;> exact h

theorem fetchOutcome_sure (f : Fetch) (r : Except Answer Page) (s : State) (hf : f.slot ≠ 0) :
    Sure s (fetchOutcome f r s).1 := by
  unfold fetchOutcome
  split
  · exact Sure.refl s
  · split
    · simp only
      split
      · exact Sure.refl s
      · split
        · exact Sure.refl s
        · exact mapSlot_sure _ (fun h => absurd h hf) s (fun x hx => amendedSlot_idle hx)
    · exact mapSlot_sure _ (fun h => absurd h hf) s (fun _ hx => ⟨hx.1, rfl⟩)

theorem releaseFetch_sure (buf : BufferId) (s : State) : Sure s (releaseFetch buf s) := by
  unfold releaseFetch
  split
  · exact Sure.refl s
  · rename_i f _
    simp only
    have a := mapSlot_sure f.slot (f := fun x => { x with busy := false }) (fun _ _ h => h) s (fun _ hx => ⟨rfl, hx.2⟩)
    split
    · refine a.trans ⟨⟨rfl, rfl, rfl, rfl, rfl, rfl, rfl, rfl, rfl, rfl, rfl⟩, fun h => { h with
        trial := ⟨h.trial.1, nofun, h.trial.2.2⟩
        held := heldInReady_of h.held rfl (fun k => ⟨k.1, ⟨rfl, k.2.1.2⟩, k.2.2⟩) }⟩
    · refine a.trans ⟨⟨rfl, rfl, rfl, rfl, rfl, rfl, rfl, rfl, rfl, rfl, rfl⟩, fun h => { h with
        trial := ⟨h.trial.1, h.trial.2.1, nofun⟩
        held := heldInReady_of h.held rfl (fun k => ⟨k.1, ⟨k.2.1.1, rfl, k.2.1.2.2⟩, k.2.2⟩) }⟩

theorem fetchOutcome_same (f : Fetch) (r : Except Answer Page) (s : State) : Same s (fetchOutcome f r s).1 := by
  unfold fetchOutcome
  split
  · exact Same.refl s
  · split
    · simp only
      split
      · exact Same.refl s
      · split
        · exact Same.refl s
        · exact ⟨rfl, rfl, rfl, rfl, rfl, rfl, rfl, rfl, rfl, rfl, rfl⟩
    · exact ⟨rfl, rfl, rfl, rfl, rfl, rfl, rfl, rfl, rfl, rfl, rfl⟩

theorem endFetch_sure (buf : BufferId) (s : State) : Sure s (endFetch buf s) := by
  unfold endFetch
  split
  · exact Sure.refl s
  · rename_i f hf
    split
    · exact Sure.refl s
    · split
      · exact Sure.refl s
      · simp only
        refine Sure.trans ?_ (conclude_sure _ _ _)
        refine Sure.trans ?_ (releaseFetch_sure _ _)
        refine Sure.of_inv (fetchOutcome_same _ _ _) (fun h => fetchOutcome_sure _ _ _ ?_)
        cases buf
        · exact h.trial.2.1 f hf
        · exact h.trial.2.2 f hf

theorem decideReadPattern_sure (no : Nat) (q : Req) (alt : Bool) (s : State) : Sure s (decideReadPattern no q alt s) := by
  unfold decideReadPattern
  simp only
  repeat' split
  all_goals first | exact conclude_sure _ _ _ | exact holdWaiting_sure _ _ _

/-- A request in the table becomes the retire watch of a slot. -/
theorem watchSlot_sure {no n : Nat} {f : Slot → Slot} {s : State} (e : s.holdsEntry no = true)
    (hf : n = 0 → ∀ x, x.isTrial → (f x).isTrial) : Sure s (s.mapSlot n f) :=
  Sure.of_entry e ⟨rfl, rfl, rfl, rfl, rfl, rfl, rfl, rfl, rfl, rfl, rfl⟩ (fun hr => setSlot_sure n hf s (.inl hr))

theorem decideRetirePattern_sure (no : Nat) (q : Req) (s : State) (e : s.holdsEntry no = true) :
    Sure s (decideRetirePattern no q s) := by
  unfold decideRetirePattern
  simp only
  repeat' split
  all_goals first | exact conclude_sure _ _ _ | exact holdWaiting_sure _ _ _ | skip
  all_goals first
    | (refine Sure.trans ?_ (conclude_sure _ _ _)
       exact mapSlot_sure _ (fun h => absurd h (by assumption)) s (fun _ hx => ⟨hx.1, rfl⟩))
    | exact (watchSlot_sure e (fun h => absurd h (by assumption))).trans (holdRunning_sure _ _)

theorem decideMeasure_sure (no : Nat) (q : Req) (a : MeasureArgs) (s : State) : Sure s (decideMeasure no q a s) := by
  unfold decideMeasure
  simp only
  repeat' split
  all_goals first | exact conclude_sure _ _ _ | exact holdWaiting_sure _ _ _

/-! ### Rolls -/

/-- A change of the fibre class table, which an event other than Set Fibre Class leaves. -/
theorem setClass_good (c : Nat) (e : Option FibreClass) (s : State) : Good s (s.setClass c e) :=
  ⟨rfl, rfl, rfl, id, fun h => { h with shape := ⟨h.shape.1, by simp [State.setClass, h.shape.2.1], h.shape.2.2⟩ }⟩

theorem decideSetClass_good (no : Nat) (a : ClassArgs) (s : State) : Good s (decideSetClass no a s) := by
  unfold decideSetClass
  split
  · exact (conclude_sure _ _ _).good
  · simp only
    exact ((setClass_good _ _ s).trans (publish_sure _).good).trans (conclude_sure _ _ _).good

theorem decideClearClass_good (no : Nat) (cls : U8) (s : State) : Good s (decideClearClass no cls s) := by
  unfold decideClearClass
  simp only
  split
  · exact (conclude_sure _ _ _).good
  · split
    · exact (conclude_sure _ _ _).good
    · split
      · exact (conclude_sure _ _ _).good
      · exact (setClass_good _ _ s).trans (conclude_sure _ _ _).good

theorem decideReadClass_sure (no : Nat) (cls : U8) (s : State) : Sure s (decideReadClass no cls s) := by
  unfold decideReadClass
  split <;> exact conclude_sure _ _ _

/-- A roll whose tag is not in the table joins it. -/
theorem addRoll_sure (r : Roll) (s : State) (hu : r.u ≤ r.declared) (ht : s.findRoll r.tag = none) (hw : r.watch = none) :
    Sure s { s with turret.rolls := s.turret.rolls ++ [r] } := by
  refine ⟨⟨rfl, rfl, rfl, rfl, rfl, rfl, rfl, rfl, rfl, rfl, rfl⟩, fun h => { h with rolls := ?_, tags := ?_, held := ?_ }⟩
  · intro x hx
    rcases List.mem_append.1 hx with hx | hx
    · exact h.rolls x hx
    · rw [List.mem_singleton.1 hx]; exact hu
  · have := h.tags
    unfold State.rollsDistinct at this ⊢
    rw [List.map_append, List.nodup_append]
    refine ⟨this, by simp, ?_⟩
    intro a ha b hb e
    obtain ⟨x, hx, rfl⟩ := List.mem_map.1 ha
    have := List.find?_eq_none.1 ht x hx
    simp at hb
    simp [e, hb] at this
  · refine heldInReady_of h.held rfl (fun k => ⟨k.1, k.2.1, k.2.2.1, k.2.2.2.1, k.2.2.2.2.1, fun x hx => ?_⟩)
    rcases List.mem_append.1 hx with hx | hx
    · exact k.2.2.2.2.2 x hx
    · rw [List.mem_singleton.1 hx]; exact hw

theorem decideRegister_sure (no : Nat) (q : Req) (a : RollArgs) (s : State) : Sure s (decideRegister no q a s) := by
  unfold decideRegister
  simp only
  repeat' split
  all_goals first | exact conclude_sure _ _ _ | skip
  refine Sure.trans ?_ (conclude_sure _ _ _)
  exact addRoll_sure _ s (Nat.zero_le _) (by assumption) rfl

/-- A change of the one roll of a tag. -/
theorem mapRoll_one {tag : Nat} {r : Roll} {s : State} (hr : s.findRoll tag = some r) {f : Roll → Roll}
    (ht : ∀ x, (f x).tag = x.tag) (hf : r.u ≤ r.declared → (f r).u ≤ (f r).declared)
    (hw : ∀ x, (f x).watch = x.watch := by exact fun _ => rfl) : Sure s (s.mapRoll tag f) := by
  refine ⟨⟨rfl, rfl, rfl, rfl, rfl, rfl, rfl, rfl, rfl, rfl, rfl⟩, fun h => ?_⟩
  have hm := List.mem_of_find?_eq_some hr
  have htag : r.tag = tag := by simpa using List.find?_some hr
  have e : ∀ x ∈ s.turret.rolls, x.tag = tag → x = r := fun x hx hxt =>
    List.inj_on_of_nodup_map h.tags hx hm (hxt.trans htag.symm)
  refine { h with rolls := ?_, tags := ?_, held := ?_ }
  · intro y hy
    obtain ⟨x, hx, rfl⟩ := List.mem_map.1 hy
    split
    · rename_i hxt
      rw [e x hx (by simpa using hxt)]; exact hf (h.rolls r hm)
    · exact h.rolls x hx
  · have e2 : (s.turret.rolls.map (fun x => if x.tag == tag then f x else x)).map Roll.tag = s.turret.rolls.map Roll.tag := by
      rw [List.map_map]
      refine List.map_congr_left (fun x _ => ?_)
      simp only [Function.comp]
      split
      · exact ht x
      · rfl
    unfold State.rollsDistinct
    change ((s.turret.rolls.map (fun x => if x.tag == tag then f x else x)).map Roll.tag).Nodup
    rw [e2]; exact h.tags
  · refine heldInReady_of h.held rfl (fun k => ⟨k.1, k.2.1, k.2.2.1, k.2.2.2.1, k.2.2.2.2.1, fun y hy => ?_⟩)
    obtain ⟨x, hx, rfl⟩ := List.mem_map.1 hy
    split
    · rw [hw]; exact k.2.2.2.2.2 x hx
    · exact k.2.2.2.2.2 x hx

theorem decideAmendRoll_sure (no : Nat) (q : Req) (a : AmendArgs) (s : State) : Sure s (decideAmendRoll no q a s) := by
  unfold decideAmendRoll
  simp only
  split
  · exact conclude_sure _ _ _
  · rename_i r hr
    split
    · exact conclude_sure _ _ _
    · split
      · exact holdWaiting_sure _ _ _
      · split
        · exact conclude_sure _ _ _
        · rename_i hok
          refine Sure.trans ?_ (conclude_sure _ _ _)
          have m : Sure s (s.mapRoll q.key.toNat (amendedRoll a)) := by
            refine mapRoll_one hr (fun _ => rfl) (fun hu => ?_)
            simp only [amendedRoll]
            split
            · rename_i hl
              simp only [State.amendRollFail] at hok
              split at hok
              · cases hok
              · rename_i hb
                simp [hl, State.badLength] at hb
                omega
            · exact hu
          exact Sure.ite (m.trans (changeWishes_sure (judgePoint_sure _))) m

theorem decideReadRoll_sure (no : Nat) (q : Req) (s : State) : Sure s (decideReadRoll no q s) := by
  unfold decideReadRoll
  simp only
  repeat' split
  all_goals exact conclude_sure _ _ _

theorem unmount_sure (r : Roll) (s : State) : Sure s (unmount r s) := by
  unfold unmount
  refine Sure.trans ?_ (removeRoll_sure _ _)
  split
  · exact mapSpindle_sure _ _ _
  · exact Sure.refl s

/-- A request in the table becomes the retire watch of a roll. -/
theorem watchRoll_sure {no : Nat} (tag : Nat) {s : State} (e : s.holdsEntry no = true) :
    Sure s (s.mapRoll tag (fun x => { x with watch := some no })) := by
  refine Sure.of_entry e ⟨rfl, rfl, rfl, rfl, rfl, rfl, rfl, rfl, rfl, rfl, rfl⟩ (fun hr =>
    ⟨⟨rfl, rfl, rfl, rfl, rfl, rfl, rfl, rfl, rfl, rfl, rfl⟩,
      fun h => { h with rolls := ?_, tags := ?_, held := heldInReady_ready hr }⟩)
  · intro r hr
    obtain ⟨x, hx, rfl⟩ := List.mem_map.1 hr
    split
    · exact h.rolls x hx
    · exact h.rolls x hx
  · have e : (s.turret.rolls.map (fun x => if x.tag == tag then { x with watch := some no } else x)).map Roll.tag =
        s.turret.rolls.map Roll.tag := by
      rw [List.map_map]
      exact List.map_congr_left (fun x _ => by simp only [Function.comp]; split <;> rfl)
    change ((s.turret.rolls.map (fun x => if x.tag == tag then { x with watch := some no } else x)).map Roll.tag).Nodup
    rw [e]; exact h.tags

theorem decideRetireRoll_sure (no : Nat) (q : Req) (s : State) (e : s.holdsEntry no = true) : Sure s (decideRetireRoll no q s) := by
  unfold decideRetireRoll
  simp only
  split
  · exact conclude_sure _ _ _
  · split
    · exact conclude_sure _ _ _
    · split
      · exact holdWaiting_sure _ _ _
      · split
        · exact (unmount_sure _ _).trans (conclude_sure _ _ _)
        · exact (unmount_sure _ _).trans (conclude_sure _ _ _)
        · exact ((unmount_sure _ _).trans (publish_sure _)).trans (conclude_sure _ _ _)
        · exact conclude_sure _ _ _
        · refine Sure.ite (conclude_sure _ _ _) (Sure.ite ((removeRoll_sure _ _).trans (conclude_sure _ _ _)) ?_)
          exact (watchRoll_sure _ e).trans (holdRunning_sure _ _)

theorem threadedStart_sure (tag : Nat) (i : SpindleId) (s : State) : Sure s (threadedStart tag i s) := by
  unfold threadedStart
  simp only
  refine Sure.trans ?_ (triggerTest_sure _)
  refine Sure.trans ?_ (publish_sure _)
  refine Sure.trans ?_ (judgeSeq_sure _)
  refine Sure.trans ?_ (judgePoint_sure _)
  refine Sure.trans ?_ (judgeUnwind_sure _)
  refine Sure.trans ?_ (headAgain_sure _)
  exact (mapRoll_sure tag (f := fun r => { r with state := .running, spindle := some i, u := 0 }) (fun _ => rfl)
    (fun _ _ => Nat.zero_le _) s).trans (mapSpindle_sure _ _ _)

theorem mountRoll_sure (tag : Nat) (i : SpindleId) (s : State) : Sure s (mountRoll tag i s) :=
  (mapRoll_sure tag (f := fun r => { r with state := .mounted, spindle := some i }) (fun _ => rfl) (fun _ h => h) s).trans
    (mapSpindle_sure _ _ _)

theorem decideMount_sure (no : Nat) (q : Req) (sp : U8) (s : State) : Sure s (decideMount no q sp s) := by
  unfold decideMount
  simp only
  refine Sure.ite (conclude_sure _ _ _) ?_
  split
  · exact conclude_sure _ _ _
  · exact conclude_sure _ _ _
  · split
    · exact conclude_sure _ _ _
    · exact conclude_sure _ _ _
    · refine Sure.ite (conclude_sure _ _ _) (Sure.ite ?_ ?_)
      · exact (threadedStart_sure _ _ s).trans (conclude_sure _ _ _)
      · exact (mountRoll_sure _ _ s).trans (conclude_sure _ _ _)
    · exact Sure.ite ((threadedStart_sure _ _ s).trans (conclude_sure _ _ _)) (conclude_sure _ _ _)

theorem decideSpliceNow_sure (no : Nat) (s : State) (e : s.holdsEntry no = true) : Sure s (decideSpliceNow no s) := by
  unfold decideSpliceNow
  refine Sure.ite (conclude_sure _ _ _) (Sure.ite (conclude_sure _ _ _) ?_)
  refine Sure.trans (t := holdRunning no { s with turret.now := some no }) ?_ (changeWishes_sure (Sure.of_view rfl))
  exact Sure.trans (t := { s with turret.now := some no }) (Sure.of_ready rfl (fun h => h.ready_of_entry e)) (holdRunning_sure _ _)

/-! ### Orders -/

theorem addOrder_sure (o : Order) (s : State) (hw : o.watch = none) : Sure s (addOrder o s) := by
  unfold addOrder
  refine Sure.trans ?_ (mapSlot_sure _ (f := fun x => { x with uses := x.uses + 1 }) (fun _ _ h => h) _)
  refine setOrders_sure _ s (fun k x hx => ?_)
  rcases List.mem_append.1 hx with hx | hx
  · exact k x hx
  · rw [List.mem_singleton.1 hx]; exact hw

/-- A request in the table becomes the notify watch of an order. -/
theorem watchOrder_sure {no : Nat} (tag : Nat) {s : State} (e : s.holdsEntry no = true) :
    Sure s (s.mapOrder tag (fun x => { x with watch := some no })) := Sure.of_ready rfl (fun h => h.ready_of_entry e)

theorem acceptOrder_sure (no : Nat) (q : Req) (o : Order) (notify : Bool) (m : Measured) (s : State) (hw : o.watch = none)
    (e : s.holdsEntry no = true) : Sure s (acceptOrder no q o notify m s) := by
  unfold acceptOrder
  simp only
  refine Sure.trans ?_ (reportCandidate_sure _)
  refine Sure.ite ?_ ((addOrder_sure o s hw).trans (conclude_sure _ _ _))
  exact (((addOrder_sure o s hw).trans (store_sure _ _)).trans (watchOrder_sure _ e)).trans (holdRunning_sure _ _)

theorem decidePlace_sure (no : Nat) (q : Req) (a : OrderArgs) (s : State) (e : s.holdsEntry no = true) : Sure s (decidePlace no q a s) := by
  unfold decidePlace
  simp only
  repeat' split
  all_goals first | exact conclude_sure _ _ _ | exact holdWaiting_sure _ _ _ | exact acceptOrder_sure _ _ _ _ _ _ rfl e

theorem decideReadOrder_sure (no : Nat) (q : Req) (s : State) : Sure s (decideReadOrder no q s) := by
  unfold decideReadOrder
  simp only
  repeat' split
  all_goals exact conclude_sure _ _ _

theorem markCancel_sure (tag : Nat) (s : State) : Sure s (markCancel tag s) := mapOrder_sure _ _ _

theorem cancelOrder_sure (o : Order) (cut : Bool) (s : State) : Sure s (cancelOrder o cut s).1 := by
  unfold cancelOrder
  split
  · exact (removeOrder_sure _ _).trans (concludeWatch_sure _ _ _)
  · split
    · split
      · exact (markCancel_sure _ _).trans (cutByRequest_sure _)
      · exact markCancel_sure _ _
    · exact (markCancel_sure _ _).trans (releaseOrder_sure _ _)
  · exact markCancel_sure _ _

theorem decideCancel_sure (no : Nat) (q : Req) (cut : Bool) (s : State) : Sure s (decideCancel no q cut s) := by
  unfold decideCancel
  simp only
  repeat' split
  all_goals first | exact conclude_sure _ _ _ | exact (cancelOrder_sure _ _ _).trans (conclude_sure _ _ _)

theorem beginTrials_sure (roll : Nat) (s : State) : Sure s (beginTrials roll s) := by
  unfold beginTrials
  simp only
  split
  · split
    · rename_i h; exact (openSeg_sure h).trans (Sure.of_view rfl)
    · exact Sure.of_view rfl
  · exact Sure.of_view rfl

/-- A request in the table becomes the alignment in progress. -/
theorem beginAlign_sure {no : Nat} {s : State} (e : s.holdsEntry no = true) :
    Sure s (judgeHead { s with head.align := some ⟨some no, 0, 0, none⟩ }) :=
  Sure.of_entry e ⟨rfl, rfl, rfl, rfl, rfl, rfl, rfl, rfl, rfl, rfl, rfl⟩ (fun hr => ⟨⟨rfl, rfl, rfl, rfl, rfl, rfl, rfl, rfl, rfl,
    rfl, rfl⟩, fun h => { h with head := headStateOf_eq _ _ _, held := heldInReady_ready hr }⟩)

theorem decideAlign_sure (no : Nat) (s : State) (e : s.holdsEntry no = true) : Sure s (decideAlign no s) := by
  unfold decideAlign
  split
  · exact conclude_sure _ _ _
  · rename_i roll _
    refine Sure.ite (conclude_sure _ _ _) (Sure.ite (conclude_sure _ _ _) ?_)
    simp only
    refine Sure.trans ?_ (headAgain_sure _)
    refine Sure.trans ?_ (beginTrials_sure _ _)
    refine Sure.trans ?_ (holdRunning_sure _ _)
    exact (misalign_sure s).trans (beginAlign_sure e)

/-! ### Panels, web and zones -/

theorem decideReadPanel_sure (no : Nat) (q : Req) (s : State) : Sure s (decideReadPanel no q s) := by
  unfold decideReadPanel
  simp only
  repeat' split
  all_goals exact conclude_sure _ _ _

theorem decideAwait_sure (no : Nat) (q : Req) (s : State) (e : s.holdsEntry no = true) : Sure s (decideAwait no q s) := by
  unfold decideAwait
  split
  · exact conclude_sure _ _ _
  · split
    · exact deliver_sure _ _ _
    · refine Sure.trans ?_ (holdRunning_sure _ _)
      exact Sure.of_ready rfl (fun h => h.ready_of_entry e)

theorem decideRelease_sure (no : Nat) (q : Req) (s : State) : Sure s (decideRelease no q s) := by
  unfold decideRelease
  simp only
  repeat' split
  all_goals first | exact conclude_sure _ _ _ | exact (freePanel_sure _ _).trans (conclude_sure _ _ _)

theorem decideReadMap_sure (no : Nat) (q : Req) (s : State) : Sure s (decideReadMap no q s) := conclude_sure _ _ _

theorem emptyCells_sure (s : State) : Sure s (emptyCells s) := cells_sure _ s (fun h => by simp [h])

theorem dropClosed_sure (s : State) : Sure s (dropClosed s) := by
  unfold dropClosed
  refine Sure.trans ?_ (Sure.foldl (fun t (g : Segment) => dropRef_sure g.roll t) _ _)
  exact Sure.of_view rfl

theorem cutBack_sure (s : State) : Sure s (cutBack s) := Sure.of_view rfl

theorem purgeWeb_sure (s : State) : Sure s (purgeWeb s) := by
  unfold purgeWeb
  simp only
  refine Sure.trans ?_ (publish_sure _)
  have a : Sure s (cutBack (s.closedSegs.foldl (exitSeg State.purgedReasons) (dropClosed (emptyCells s)))) :=
    (((emptyCells_sure s).trans (dropClosed_sure _)).trans (Sure.foldl (exitSeg_sure State.purgedReasons) _ _)).trans
      (cutBack_sure _)
  exact Sure.ite a (a.trans (reportPlaces_sure _))

theorem decidePurge_sure (no : Nat) (s : State) : Sure s (decidePurge no s) := by
  unfold decidePurge
  exact Sure.ite (conclude_sure _ _ _) (Sure.ite (conclude_sure _ _ _) ((purgeWeb_sure _).trans (conclude_sure _ _ _)))

/-- New zones and parameters, as many zones as before. -/
theorem setChest_good (par : ZoneParams) (zs : List Zone) (s : State) (hz : zs.length = s.chest.zones.length) :
    Good s { s with chest.par := par, chest.zones := zs } :=
  ⟨rfl, rfl, rfl, id, fun h => { h with shape := ⟨h.shape.1, h.shape.2.1, hz.trans h.shape.2.2.1, h.shape.2.2.2⟩ }⟩

theorem editZones_good (a : ZonesArgs) (s : State) : Good s (editZones a s) := by
  unfold editZones
  simp only
  refine Good.trans ?_ (testRun_sure _).good
  refine Good.trans ?_ (reportReady_sure _).good
  exact setChest_good _ _ s (by simp)

theorem decideSetZones_good (no : Nat) (a : ZonesArgs) (s : State) : Good s (decideSetZones no a s) := by
  unfold decideSetZones
  split
  · exact (conclude_sure _ _ _).good
  · exact (editZones_good a s).trans (conclude_sure _ _ _).good

theorem decideReadZones_sure (no : Nat) (q : Req) (cells : Bool) (s : State) : Sure s (decideReadZones no q cells s) :=
  conclude_sure _ _ _

/-! ### Line -/

/-- In a state other than HOLD, THREAD and STOPPING no hold reason stands. -/
theorem Inv.holds_empty {s : State} (h : Inv s) (a : s.line.state ≠ .hold) (b : s.line.state ≠ .thread)
    (c : s.line.state ≠ .stopping) : s.line.holds = Holds.empty := by
  have := h.holds
  unfold State.holdsFit at this
  split at this <;> simp_all

theorem decideEnergise_sure (no : Nat) (s : State) : Sure s (decideEnergise no s) := by
  unfold decideEnergise
  split
  · exact conclude_sure _ _ _
  · rename_i h
    split
    · exact conclude_sure _ _ _
    · exact (enterLine_sure .standby s (by simp) (by simp) (by simp) (fun _ => by simp_all)).trans (conclude_sure _ _ _)

theorem decideDeEnergise_sure (no : Nat) (s : State) : Sure s (decideDeEnergise no s) := by
  unfold decideDeEnergise
  split
  · exact conclude_sure _ _ _
  · exact (enterLine_sure .off s (by simp) (by simp) (by simp) (fun _ => by simp_all)).trans (conclude_sure _ _ _)

theorem decideThread_sure (no : Nat) (s : State) : Sure s (decideThread no s) := by
  unfold decideThread
  split
  · exact conclude_sure _ _ _
  · exact (enterLine_sure .thread s (by simp) (by simp) (by simp) (fun _ => by simp_all)).trans (conclude_sure _ _ _)

theorem decideStart_sure (no : Nat) (s : State) (e : s.holdsEntry no = true) : Sure s (decideStart no s) := by
  unfold decideStart
  split
  · exact conclude_sure _ _ _
  · rename_i hs
    have hb : s.line.state = .standby := by
      by_contra hn; exact hs (.inl hn)
    refine Sure.ite (conclude_sure _ _ _) (Sure.ite (conclude_sure _ _ _) ?_)
    have a : Sure s (holdRunning no { s with line.startWatch := some no, line.deadline := some 0 }) := by
      refine Sure.trans ?_ (holdRunning_sure _ _)
      exact Sure.of_ready rfl (fun h => h.ready_of_entry e)
    have b : (holdRunning no { s with line.startWatch := some no, line.deadline := some 0 }).line.state = .standby := hb
    exact a.trans (enterLine_sure .starting _ (by simp)
      (fun h _ => h.holds_empty (by simp [b]) (by simp [b]) (by simp [b])) (by simp) (fun _ => by simp [b]))

theorem addStop_sure (no : Nat) (s : State) : Sure s (addStop no s) := by
  unfold addStop
  split
  · rename_i e
    refine Sure.trans ?_ (holdRunning_sure _ _)
    exact Sure.of_ready rfl (fun h => h.ready_of_entry e)
  · exact Sure.refl s

theorem abortStart_sure (s : State) : Sure s (abortStart s) := by
  unfold abortStart
  exact (endStart_sure s).trans (concludeWatch_sure _ _ _)

theorem cutIf_sure (cut : Bool) (s : State) : Sure s (cutIf cut s) := Sure.ite (cutByRequest_sure s) (Sure.refl s)

/-- Entering a state that asks nothing of the hold reasons, after an operation that leaves the halt cause. -/
theorem enterAfter_sure {s t : State} (a : Sure s t) (st : LineState) (hd : st ≠ .hold) (hr : st ≠ .starting) (hu : st ≠ .run)
    (hn : st ≠ .halt) (ho : s.line.state ≠ .halt) : Sure s (enterLine st t) := by
  refine Sure.of_inv (a.same.trans ?_) (fun h => ?_)
  · unfold enterLine
    exact (lineTo_same st t).trans (testRun_sure _).same
  · exact a.trans (enterLine_sure st t (fun _ e => absurd e hd) (fun _ e => e.elim (fun x => absurd x hr) (fun x => absurd x hu)) hn
      (fun _ => a.no_halt h ho))

theorem decideStop_sure (no : Nat) (cut : Bool) (s : State) : Sure s (decideStop no cut s) := by
  have g : s.line.state ≠ .halt → Sure s (addStop no (abortStart (enterLine .stopping (cutIf cut s)))) := fun ho =>
    ((enterAfter_sure (cutIf_sure cut s) .stopping (by simp) (by simp) (by simp) (by simp) ho).trans (abortStart_sure _)).trans
      (addStop_sure _ _)
  unfold decideStop
  split
  · rename_i e; exact g (by simp [e])
  · rename_i e; exact g (by simp [e])
  · rename_i e; exact g (by simp [e])
  · exact (cutIf_sure cut s).trans (addStop_sure _ _)
  · rename_i e
    simp only
    refine Sure.trans ?_ (conclude_sure _ _ _)
    refine enterAfter_sure ?_ .standby (by simp) (by simp) (by simp) (by simp) (by simp [e])
    split
    · exact (misalign_sure s).trans (finishAlign_sure _ _ _)
    · exact Sure.refl s
  · exact conclude_sure _ _ _

theorem decideHold_sure (no : Nat) (s : State) : Sure s (decideHold no s) := by
  unfold decideHold
  split
  · exact (raiseReason_sure _ _).trans (conclude_sure _ _ _)
  · exact (raiseReason_sure _ _).trans (conclude_sure _ _ _)
  · exact (raiseReason_sure _ _).trans (conclude_sure _ _ _)
  · exact conclude_sure _ _ _

theorem decideResume_sure (no : Nat) (s : State) : Sure s (decideResume no s) := by
  unfold decideResume
  exact Sure.ite ((conclude_sure _ _ _).trans (clearReason_sure _ _)) (conclude_sure _ _ _)

/-- Outside HALT the cause and the set of halt causes are empty again. -/
theorem clearHalt_good (s : State) :
    Good s (enterLine .standby { s with line.cause := none, line.halts := Halts.empty }) := by
  have a : Same { s with line.cause := none, line.halts := Halts.empty }
      (enterLine .standby { s with line.cause := none, line.halts := Halts.empty }) :=
    (lineTo_same _ _).trans (testRun_sure _).same
  refine ⟨a.pending, a.bus, a.clock, fun h => by rw [a.consts]; exact h, fun h => (testRun_sure _).inv ?_⟩
  have := lineTo_inv h .standby s.line.holds (by simp) (by simp) none Halts.empty ⟨by simp, fun _ => rfl⟩
  exact this

theorem decideClearHalt_good (no : Nat) (s : State) : Good s (decideClearHalt no s) := by
  unfold decideClearHalt
  split
  · exact (conclude_sure _ _ _).good
  · rename_i h
    exact Good.ite (conclude_sure _ _ _).good ((clearHalt_good s).trans (conclude_sure _ _ _).good)

/-- A clamped speed lies in its range. -/
theorem clampSpeed_range (r : SpeedRange) (v : Nat) : r.min ≤ clampSpeed r v ∧ clampSpeed r v ≤ r.max := by
  unfold clampSpeed
  cases r <;> simp only [SpeedRange.min, SpeedRange.max] <;> omega

/-- Speeds set within their range and the effective speed recomputed. -/
theorem setSpeeds_good (r : SpeedRange) (v l : Nat) (s : State) (hv : r.min ≤ v ∧ v ≤ r.max) (hl : Inv s → r.min ≤ l ∧ l ≤ r.max) :
    Good s (recomputeSpeed { s with line.range := r, line.commanded := v, line.limit := l }) :=
  ⟨rfl, rfl, rfl, id, fun h => { h with
    range := ⟨hv.1, hv.2, (hl h).1, (hl h).2⟩
    speed := ⟨rfl, Line.reference_eq _⟩ }⟩

theorem decideSetSpeed_good (no : Nat) (speed : U16) (s : State) : Good s (decideSetSpeed no speed s) := by
  unfold decideSetSpeed
  simp only
  refine Good.trans ?_ (conclude_sure _ _ _).good
  exact setSpeeds_good s.line.range _ s.line.limit s (clampSpeed_range _ _) (fun h => ⟨h.range.2.2.1, h.range.2.2.2⟩)

theorem changeRange_good (r : SpeedRange) (s : State) : Good s (changeRange r s) := by
  unfold changeRange
  refine Good.trans (t := misalign s) (misalign_sure s).good ?_
  exact setSpeeds_good r _ r.max (misalign s) (clampSpeed_range _ _) (fun _ => by cases r <;> decide)

theorem decideSetRange_good (no : Nat) (code : U8) (s : State) : Good s (decideSetRange no code s) := by
  unfold decideSetRange
  simp only
  repeat' split
  all_goals first | exact (conclude_sure _ _ _).good | exact (changeRange_good _ _).trans (conclude_sure _ _ _).good

/-- Constants that pass the checks of R143 keep the store within C. -/
theorem constsFirstFail_cap {k : Consts} {a : Nat} (h : constsFirstFail k a = none) : a ≤ k.cap := by
  unfold constsFirstFail at h
  rw [List.findSome?_eq_none_iff] at h
  have := h (if k.cap < a then some ⟨5, 0x0C, [(k.cap : Int), (a : Int)]⟩ else none) (by simp)
  simp only [id] at this
  split at this
  · cases this
  · omega

theorem applyConsts_good (k : Consts) (s : State) (hk : s.line.store ≤ k.cap) : Good s (applyConsts k s) := by
  have a : Good s (misalign { s with line.consts := some k, head.window := k.window }) :=
    ⟨rfl, rfl, rfl, fun _ => rfl, fun h => { h with store := fun j hj => by cases hj; exact hk }⟩
  unfold applyConsts
  simp only
  exact ((a.trans (judgeLatch_sure _).good).trans (changeWishes_sure (judgePoint_sure _)).good).trans (publish_sure _).good

theorem decideSetConsts_good (no : Nat) (q : Req) (s : State) : Good s (decideSetConsts no q s) := by
  unfold decideSetConsts
  refine Good.ite (conclude_sure _ _ _).good ?_
  split
  · exact (conclude_sure _ _ _).good
  · simp only
    refine Good.ite (conclude_sure _ _ _).good ?_
    split
    · exact (conclude_sure _ _ _).good
    · split
      · exact (conclude_sure _ _ _).good
      · rename_i hf
        exact (applyConsts_good _ s (constsFirstFail_cap hf)).trans (conclude_sure _ _ _).good

theorem decideReadStatus_sure (no : Nat) (q : Req) (c : Bool) (s : State) : Sure s (decideReadStatus no q c s) :=
  conclude_sure _ _ _

/-! ### Dispatch and retry -/

/-- The decision of a request in the table. -/
theorem decideCall_good (no : Nat) (q : Req) (c : Call) (s : State) (e : s.holdsEntry no = true) : Good s (decideCall no q c s) := by
  cases c
  case definePattern => exact (decideDefine_sure _ _ _ e).good
  case amendPattern => exact (decideAmend_sure _ _ _ e).good
  case readPattern => exact (decideReadPattern_sure _ _ _ _).good
  case retirePattern => exact (decideRetirePattern_sure _ _ _ e).good
  case measurePattern => exact (decideMeasure_sure _ _ _ _).good
  case setFibreClass => exact decideSetClass_good _ _ _
  case clearFibreClass => exact decideClearClass_good _ _ _
  case readFibreClass => exact (decideReadClass_sure _ _ _).good
  case registerRoll => exact (decideRegister_sure _ _ _ _).good
  case amendRoll => exact (decideAmendRoll_sure _ _ _ _).good
  case readRoll => exact (decideReadRoll_sure _ _ _).good
  case retireRoll => exact (decideRetireRoll_sure _ _ _ e).good
  case placeOrder => exact (decidePlace_sure _ _ _ _ e).good
  case readOrder => exact (decideReadOrder_sure _ _ _).good
  case cancelOrder => exact (decideCancel_sure _ _ _ _).good
  case alignBlade => exact (decideAlign_sure _ _ e).good
  case readPanel => exact (decideReadPanel_sure _ _ _).good
  case awaitPanelExit => exact (decideAwait_sure _ _ _ e).good
  case releasePanel => exact (decideRelease_sure _ _ _).good
  case readWebMap => exact (decideReadMap_sure _ _ _).good
  case purgeWeb => exact (decidePurge_sure _ _).good
  case setZones => exact decideSetZones_good _ _ _
  case readZones => exact (decideReadZones_sure _ _ _ _).good
  case energise => exact (decideEnergise_sure _ _).good
  case deEnergise => exact (decideDeEnergise_sure _ _).good
  case thread => exact (decideThread_sure _ _).good
  case start => exact (decideStart_sure _ _ e).good
  case stop => exact (decideStop_sure _ _ _).good
  case hold => exact (decideHold_sure _ _).good
  case resume => exact (decideResume_sure _ _).good
  case clearHalt => exact decideClearHalt_good _ _
  case setSpeed => exact decideSetSpeed_good _ _ _
  case setRange => exact decideSetRange_good _ _ _
  case setLineConstants => exact decideSetConsts_good _ _ _
  case readLineStatus => exact (decideReadStatus_sure _ _ _ _).good
  case mountRoll => exact (decideMount_sure _ _ _ _).good
  case spliceNow => exact (decideSpliceNow_sure _ _ e).good

theorem redecide_good (s : State) (no : Nat) : Good s (redecide s no) := by
  unfold redecide
  split
  · rename_i e
    split
    · exact decideCall_good _ _ _ _ (by simp [State.holdsEntry, e])
    · exact Good.refl s
  · exact Good.refl s

theorem retryFor_good (p : Await → Bool) (s : State) : Good s (retryFor p s) := Good.foldl redecide_good _ s

end Sys2Proof.Machine
end

