-- ==== Sys2Proof/Laws/EventSound.lean ====
section
/-! SUPPORT. What the halts, the events of the line and the port's own events keep (Halt.lean, Events.lean, Window.lean): one lemma per
operation. The meanings of the commands are built from these. -/

namespace Sys2Proof.Machine

theorem Good.of_view {s t : State} (h : t.view = s.view) : Good s t := (Sure.of_view h).good

/-! ### Halts and the end of a press -/

theorem restartStall_sure (s : State) : Sure s (restartStall s) := Sure.of_view rfl

/-- The sequence leaves PRESSING: the press command goes off. -/
theorem endSeq_sure {s u : State} (e : u = { s with turret := u.turret, head := u.head }) (hs : u.turret.seq = .idle)
    (hp : u.turret.pressOut = false) (hr : u.turret.rolls = s.turret.rolls) (hc : u.turret.classes = s.turret.classes)
    (hn : u.turret.now = none) (h1 : u.head.state = s.head.state) (h2 : u.head.panel = s.head.panel)
    (h3 : u.head.align = s.head.align) : Sure s u := by
  generalize u.turret = t at e hs hp hr hc hn
  generalize u.head = hd at e h1 h2 h3
  subst e
  refine ⟨⟨rfl, rfl, rfl, rfl, rfl, rfl, rfl, rfl, rfl, hc, rfl⟩, fun h => { h with
    shape := ⟨h.shape.1, by simpa [hc] using h.shape.2.1, h.shape.2.2⟩
    press := ⟨by simp [hs, hp], ?_⟩
    rolls := by simpa [State.rollsWithin, hr] using h.rolls
    tags := by simpa [State.rollsDistinct, hr] using h.tags
    held := heldInReady_of h.held rfl (fun k => ⟨k.1, k.2.1, k.2.2.1, ⟨fun a ha => k.2.2.2.1.1 a (h3.symm.trans ha), k.2.2.2.1.2⟩,
      hn, by simpa [hr] using k.2.2.2.2.2⟩)
    head := ?_ }⟩
  · rintro (a | a)
    · simp [hs] at a
    · exact h.press.2 (.inr a)
  · have := h.head
    unfold State.headFollows at this ⊢
    simp only [h1, h2, h3]
    exact this

theorem closePress_sure (s : State) : Sure s (closePress s) := by
  have a : ∀ p : PressRoll, Sure s ((s.mapRoll p.tag (fun r => { r with state := .mounted })).mapSpindle p.spindle
      (fun x => { x with state := .loaded })) := fun p =>
    (mapRoll_sure p.tag (f := fun r => { r with state := .mounted }) (fun _ => rfl) (fun _ h => h) s).trans (mapSpindle_sure _ _ _)
  have b : ∀ t : State, Sure t (restartStall (judgeUnwind (judgeSeq { t with
      turret.seq := .idle, turret.pressOut := false, turret.outgoing := none, turret.incoming := none, turret.press := none
      turret.request := false, turret.now := none }))) := by
    intro t
    refine Sure.trans ?_ (restartStall_sure _)
    refine Sure.trans ?_ (judgeUnwind_sure _)
    refine Sure.trans ?_ (judgeSeq_sure _)
    exact endSeq_sure rfl rfl rfl rfl rfl rfl rfl rfl rfl
  unfold closePress
  simp only
  refine Sure.trans ?_ (b _)
  split
  · exact a _
  · exact Sure.refl s

theorem afterPress_good (old : Turret) (a : Answer) (s : State) : Good s (afterPress old a s) :=
  ((publish_sure s).trans (concludeWatch_sure _ _ _)).good.trans (retryFor_good _ _)

/-- A cause joins the set while one stands. -/
theorem addCause_sure (c : HaltCause) (s : State) (h : s.line.cause.isSome = true) : Sure s (addCause c s) :=
  ⟨⟨rfl, rfl, rfl, rfl, rfl, rfl, rfl, rfl, rfl, rfl, rfl⟩,
    fun i => { i with halts := ⟨i.halts.1, fun e => absurd (i.halts.1.1 h) e⟩ }⟩

theorem haltPress_good (s : State) (h : s.line.cause.isSome = true) : Good s (haltPress s) := by
  have a := closePress_sure s
  have ha : (closePress s).line.cause.isSome = true := by rw [a.same.cause]; exact h
  have b := addCause_sure .spliceFault (closePress s) ha
  have hb : (addCause .spliceFault (closePress s)).line.cause.isSome = true := ha
  unfold haltPress
  simp only
  exact (Sure.ite ((a.trans b).trans (addCause_sure .tailOut _ hb)) (a.trans b)).good.trans (afterPress_good _ _ _)

theorem haltIdle_sure (s : State) : Sure s (haltIdle s) := by
  unfold haltIdle
  refine Sure.trans ?_ (concludeWatch_sure _ _ _)
  refine (endNow_sure s).trans (changeWishes_sure ?_)
  exact Sure.of_view rfl

theorem haltTurret_good (b : Bool) (s : State) (h : s.line.cause.isSome = true) : Good s (haltTurret b s) :=
  Good.ite (haltPress_good s h) (haltIdle_sure s).good

theorem haltWatches_sure (s : State) : Sure s (haltWatches s) := by
  unfold haltWatches
  simp only
  refine Sure.trans ?_ (concludeAll_sure _ _ _)
  refine Sure.trans ?_ (concludeWatch_sure _ _ _)
  exact (endStart_sure s).trans (endStops_sure _)

theorem enterHalt_good (c : HaltCause) (s : State) : Good s (enterHalt c s) := by
  have a : Good s (lineTo .halt (addCause c { s with line.cause := some c })) := by
    have e := lineTo_same .halt (addCause c { s with line.cause := some c })
    refine ⟨e.pending, e.bus, e.clock, fun h => by rw [e.consts]; exact h, fun h => ?_⟩
    exact lineTo_inv h .halt s.line.holds (by simp) (by simp) (some c) (s.line.halts.add c) ⟨by simp, by simp⟩
  have hc : (lineTo .halt (addCause c { s with line.cause := some c })).line.cause = some c :=
    (lineTo_same .halt (addCause c { s with line.cause := some c })).cause
  have b := (haltWatches_sure (lineTo .halt (addCause c { s with line.cause := some c }))).trans (haltHead_sure _)
  unfold enterHalt
  refine (a.trans b.good).trans (haltTurret_good _ _ ?_)
  rw [b.same.cause, hc]; rfl

theorem raiseHalt_good (c : HaltCause) (s : State) : Good s (raiseHalt c s) := by
  unfold raiseHalt
  split
  · exact Good.refl s
  · rename_i e
    refine ⟨rfl, rfl, rfl, id, fun h => (addCause_sure c s (h.halts.1.2 e)).inv h⟩
  · exact enterHalt_good c s

theorem exchangeRolls_sure (out inc : PressRoll) (pos : Nat) (s : State) : Sure s (exchangeRolls out inc pos s) := by
  have a := (mapRoll_sure out.tag (f := fun r => { r with state := .spent }) (fun _ => rfl) (fun _ h => h) s).trans
    (mapSpindle_sure out.spindle (fun x => { x with state := .core }) _)
  have b := a.trans ((mapRoll_sure inc.tag (f := fun r => { r with state := .running, u := 0 }) (fun _ => rfl)
    (fun _ _ => Nat.zero_le _) _).trans (mapSpindle_sure inc.spindle (fun x => { x with state := .feeding }) _))
  unfold exchangeRolls
  simp only
  refine Sure.trans ?_ (judgeSeq_sure _)
  refine Sure.trans ?_ (judgePoint_sure _)
  refine Sure.trans b ?_
  exact endSeq_sure rfl rfl rfl rfl rfl rfl rfl rfl rfl

theorem spliceDone_good (out inc : PressRoll) (s : State) : Good s (spliceDone out inc s) := by
  unfold spliceDone
  simp only
  have a := (((exchangeRolls_sure out inc s.splicerPos s).trans (judgeUnwind_sure _)).trans (restartStall_sure _)).trans
    (headAgain_sure _)
  have b := a.good.trans (afterPress_good s.turret (spliceMadeAnswer s out inc s.splicerPos) _)
  exact Good.ite (b.trans (raiseHalt_good _ _)) b

theorem pressTimeout_good (s : State) : Good s (pressTimeout s) := by
  unfold pressTimeout
  simp only
  have a := (closePress_sure s).good.trans (raiseHalt_good .spliceFault _)
  exact (Good.ite (a.trans (raiseHalt_good .tailOut _)) a).trans (afterPress_good _ _ _)

/-! ### Events of the line -/

theorem takeResults_sure (rs : List Crease) (fl : Flight) (s : State) : Sure s (takeResults rs fl s) := by
  have a : Sure s (if fl.unit.fold then countFolds (readResults fl.unit.strokes.length rs) s else s) :=
    Sure.ite (countFolds_sure _ _) (Sure.refl s)
  unfold takeResults
  simp only
  refine Sure.trans ?_ (completeIfDone_sure _)
  exact a.trans (Sure.of_view rfl)

theorem pleatTaken_good (rs : List Crease) (s : State) : Good s (pleatTaken rs s) := by
  have w : Sure s { s with head.blade := [] } := Sure.of_view rfl
  unfold pleatTaken
  split
  · exact w.good
  · rename_i fl _
    simp only
    have a := (w.trans (takeResults_sure rs fl _)).good
    exact Good.ite w.good (Good.ite (a.trans (raiseHalt_good _ _)) a)

theorem dropPleat_sure (s : State) : Sure s (dropPleat s) := Sure.of_view rfl

theorem pleatReport_good (rs : List Crease) (s : State) : Good s (pleatReport rs s) :=
  Good.ite (pleatTaken_good rs s) (dropPleat_sure s).good

theorem creditRoll_sure (len : Nat) (s : State) : Sure s (creditRoll len s) := by
  unfold creditRoll
  split
  · refine mapRoll_sure _ (f := fun x => { x with u := x.u + min len x.remaining }) (fun _ => rfl) (fun r h => ?_) s
    simp only [Roll.remaining]
    omega
  · exact Sure.refl s

theorem storeAdvance_sure (len : Nat) (s : State) : Sure s (storeAdvance len s) := by
  have a : Sure s { s with line.store := min s.k.cap (s.line.store + len) } :=
    ⟨⟨rfl, rfl, rfl, rfl, rfl, rfl, rfl, rfl, rfl, rfl, rfl⟩, fun h => { h with
      store := fun k hk => by
        have : s.k = k := by simp [State.k, show s.line.consts = some k from hk]
        simp only [this]; exact Nat.min_le_left _ _ }⟩
  have b : ∀ t : State, Sure t (recomputeSpeed (stepLimit t)) := fun t =>
    ⟨⟨rfl, rfl, rfl, rfl, rfl, rfl, rfl, rfl, rfl, rfl, rfl⟩, fun h => { h with
      range := by
        obtain ⟨h1, h2, h3, h4⟩ := h.range
        refine ⟨h1, h2, ?_⟩
        simp only [recomputeSpeed, driveSpeed, stepLimit]
        generalize t.line.range.min = lo at h1 h2 h3 h4 ⊢
        generalize t.line.range.max = hi at h1 h2 h3 h4 ⊢
        split
        · omega
        · split <;> omega
      speed := ⟨rfl, Line.reference_eq _⟩ }⟩
  unfold storeAdvance
  simp only
  exact ((a.trans (judgeLatch_sure _)).trans (b _)).trans (Sure.of_view rfl)

/-- The tail mark of a press. -/
theorem markTail_sure (out : Bool) (s : State) : Sure s (markTail out s) := Sure.ite (Sure.of_view rfl) (Sure.refl s)

theorem unwindReport_good (len : Nat) (s : State) : Good s (unwindReport len s) := by
  have a := (((creditRoll_sure len s).trans (storeAdvance_sure len _)).trans (markTail_sure (s.exhausts len) _)).good
  unfold unwindReport
  simp only
  generalize markTail (s.exhausts len) (storeAdvance len (creditRoll len s)) = t at a ⊢
  have b : Good s (if s.k.cap < s.line.store + len then raiseHalt .overfill t else t) :=
    Good.ite (a.trans (raiseHalt_good _ _)) a
  refine Good.trans ?_ (changeWishes_sure (judgePoint_sure _)).good
  exact Good.ite (b.trans (raiseHalt_good _ _)) b

theorem enterMark_sure (s : State) : Sure s (enterMark s) := Sure.ite (Sure.refl s) (Sure.of_view rfl)

theorem spindleUp_sure (i : SpindleId) (s : State) : Sure s (spindleUp i s) := by
  unfold spindleUp
  refine Sure.ite ?_ (Sure.refl s)
  refine Sure.trans ?_ (triggerTest_sure _)
  refine Sure.trans ?_ (publish_sure _)
  exact (mapRoll_sure _ (f := fun r => { r with state := .prepared }) (fun _ => rfl) (fun _ h => h) s).trans
    (mapSpindle_sure _ _ _)

theorem spindleInput_sure (i : SpindleId) (level : Bool) (s : State) : Sure s (spindleInput i level s) := by
  unfold spindleInput
  have a := mapSpindle_sure i (fun x => { x with readyIn := level }) s
  exact Sure.ite (a.trans (spindleUp_sure i _)) a

theorem coreOff_sure (i : SpindleId) (s : State) : Sure s (coreOff i s) := by
  unfold coreOff
  refine Sure.ite ?_ (Sure.refl s)
  refine Sure.trans ?_ (endRollRetirement_sure _ _)
  exact (mapRoll_sure _ (f := fun r => { r with spindle := none }) (fun _ => rfl) (fun _ h => h) s).trans (mapSpindle_sure _ _ _)

theorem coreInput_sure (i : SpindleId) (level : Bool) (s : State) : Sure s (coreInput i level s) := by
  unfold coreInput
  have a := mapSpindle_sure i (fun x => { x with coreIn := level }) s
  exact Sure.ite (a.trans (coreOff_sure i _)) a

theorem spliceInput_good (level : Bool) (s : State) : Good s (spliceInput level s) := by
  have a : Sure s { s with turret.splice := level } := Sure.of_view rfl
  unfold spliceInput
  simp only
  split
  · split
    · exact a.good.trans (spliceDone_good _ _ _)
    · exact a.good
  · exact a.good

theorem raiseCause_good (c : Option HaltCause) (s : State) : Good s (raiseCause c s) := by
  unfold raiseCause
  split
  · exact raiseHalt_good _ _
  · exact Good.refl s

theorem sampleReport_good (z : ZoneId) (x : Sample) (s : State) : Good s (sampleReport z x s) := by
  unfold sampleReport
  simp only
  refine Good.trans ?_ (publish_sure _).good
  refine Good.trans ?_ (testRun_sure _).good
  refine Good.trans ?_ (reportReady_sure _).good
  exact ((classifyZone_sure z x s).good.trans (raiseCause_good _ _)).trans (workZone_sure _ _ _).good

/-- The last level of an input of the line is no part of an invariant. -/
theorem estop_good (level : Bool) (s : State) : Good s { s with line.estop := level } :=
  ⟨rfl, rfl, rfl, id, fun h => { h with }⟩

theorem drive_good (level : Bool) (s : State) : Good s { s with line.drive := level } :=
  ⟨rfl, rfl, rfl, id, fun h => { h with }⟩

theorem estopInput_good (level : Bool) (s : State) : Good s (estopInput level s) :=
  Good.ite ((estop_good level s).trans (raiseHalt_good _ _)) (estop_good level s)

theorem driveInput_good (level : Bool) (s : State) : Good s (driveInput level s) :=
  Good.ite ((drive_good level s).trans (raiseHalt_good _ _)) (drive_good level s)

theorem stallExpiry_good (s : State) : Good s (stallExpiry s) := Good.ite (raiseHalt_good _ s) (Good.refl s)

theorem startExpiry_sure (s : State) : Sure s (startExpiry s) := by
  unfold startExpiry
  split
  · rename_i h
    have e : s.line.state = .starting := by
      simp only [State.startDue, Bool.and_eq_true, beq_iff_eq] at h; exact h.1
    simp only
    refine Sure.trans ?_ (concludeWatch_sure _ _ _)
    exact (enterLine_sure .standby s (by simp) (by simp) (by simp) (fun _ => by simp [e])).trans (endStart_sure _)
  · exact Sure.refl s

theorem pressExpiry_good (s : State) : Good s (pressExpiry s) := Good.ite (pressTimeout_good s) (Good.refl s)

theorem purgeStart_sure (z : ZoneId) (s : State) : Sure s (purgeStart z s) := Sure.ite (mapZone_sure _ _ _) (Sure.refl s)

theorem purgeStop_sure (z : ZoneId) (s : State) : Sure s (purgeStop z s) := Sure.ite (mapZone_sure _ _ _) (Sure.refl s)

/-! ### Events of the port -/

theorem bootstrapWrite_sure (addr : U32) (s : State) : Sure s (bootstrapWrite addr s) := by
  unfold bootstrapWrite
  split
  · rename_i h
    have hr : s.port.state ≠ .ready := by rcases h with e | e <;> simp [e]
    exact Sure.ite (Sure.of_base rfl (fun i _ => i.held hr)) (Sure.of_base rfl (fun i _ => i.held hr))
  · exact Sure.refl s

theorem initFails_sure (f : PortFault) (s : State) (hr : s.port.state ≠ .ready) : Sure s (initFails f s) :=
  Sure.of_base rfl (fun i _ => i.held hr)

/-- The constants outcome of a bootstrap is no part of an invariant. -/
theorem setOutcome_good (o : ConstsOutcome) (s : State) : Good s { s with port.outcome := o } := Good.of_view rfl

theorem judgeConsts_good (flag : Bool) (k : Consts) (s : State) : Good s (judgeConsts flag k s) := by
  unfold judgeConsts
  refine Good.ite (setOutcome_good _ s) (Good.ite (setOutcome_good _ s) (Good.ite (setOutcome_good _ s) ?_))
  split
  · exact setOutcome_good _ s
  · rename_i hf
    exact (applyConsts_good k s (constsFirstFail_cap hf)).trans (setOutcome_good _ _)

theorem ready_sure (a n b m : Nat) (s : State) : Sure s (ready a n b m s) :=
  ⟨⟨rfl, rfl, rfl, rfl, rfl, rfl, rfl, rfl, rfl, rfl, rfl⟩, fun h => { h with table := Nat.zero_le _, held := heldInReady_ready rfl }⟩

theorem bootstrapEnd_good (s : State) : Good s (bootstrapEnd s) := by
  unfold bootstrapEnd
  split
  · exact Good.refl s
  · rename_i h
    have hr : s.port.state ≠ .ready := by simp only [ne_eq, not_not] at h; simp [h]
    split
    · exact (initFails_sure _ _ hr).good
    · simp only
      split
      · exact (judgeConsts_good _ _ s).trans (ready_sure _ _ _ _ _).good
      · exact (initFails_sure _ _ hr).good

theorem strobe_sure (s : State) : Sure s (strobe s) := by
  unfold strobe
  split
  · rename_i hr
    refine Sure.trans ?_ (examineReturn_sure _)
    exact Sure.ite (Sure.of_ready rfl (fun _ => hr)) (Sure.of_ready rfl (fun _ => hr))
  · exact Sure.refl s

theorem lowerAttention_sure (s : State) : Sure s (lowerAttention s) := by
  unfold lowerAttention
  refine Sure.ite (Sure.refl s) (Sure.ite ?_ (Sure.of_view rfl))
  refine Sure.trans ?_ (examineReturn_sure _)
  exact Sure.of_view rfl

theorem resetPort_sure (s : State) : Sure s (resetPort s) := by
  refine (dropRequests_sure s).trans (Sure.of_base rfl (fun _ _ => ?_))
  exact dropRequests_nothing s rfl ⟨rfl, rfl, rfl, rfl, rfl, rfl⟩

/-! ### Aborts, the scan and the reading of a block -/

theorem abortFetch_sure (no : Nat) (s : State) : Sure s (abortFetch no s).1 := by
  unfold abortFetch
  split
  · split
    · exact (releaseFetch_sure _ _).trans (conclude_sure _ _ _)
    · exact Sure.refl s
  · exact Sure.refl s

theorem abortRetire_sure (no : Nat) (s : State) : Sure s (abortRetire no s) := by
  unfold abortRetire
  refine Sure.trans ?_ (conclude_sure _ _ _)
  exact mapSlots_sure (f := fun x => if x.watch == some no then { x with state := .active, watch := none } else x)
    (fun x hx => by
      split
      · exact ⟨rfl, hx.2⟩
      · exact hx) s
    (fun x hx => by
      split
      · exact ⟨hx.1, rfl⟩
      · exact hx)

theorem abortNotify_sure (no : Nat) (s : State) : Sure s (abortNotify no s) := by
  unfold abortNotify
  split
  · refine Sure.trans ?_ (conclude_sure _ _ _)
    exact mapOrder_sure _ (fun x => { x with watch := none }) s (fun _ _ => rfl)
  · exact conclude_sure _ _ _

theorem abortRollRetire_sure (no : Nat) (s : State) : Sure s (abortRollRetire no s) := by
  unfold abortRollRetire
  refine Sure.trans ?_ (conclude_sure _ _ _)
  exact mapRolls_sure (f := fun r => if r.watch == some no then { r with watch := none } else r)
    (fun r => by split <;> rfl) (fun r h => by split <;> exact h) s
    (fun r h => by split; exacts [rfl, h])

theorem abortOfStart_sure (no : Nat) (s : State) : Sure s (abortOfStart no s) := by
  unfold abortOfStart
  simp only
  have a : Sure s (conclude no (abortedAnswer 3) { s with line.startWatch := none }) := by
    exact (endStart_sure s).trans (conclude_sure _ _ _)
  split
  · rename_i e
    exact a.trans (enterLine_sure .standby _ (by simp) (by simp) (by simp) (fun _ => by simp [e]))
  · exact a.trans (Sure.of_view rfl)

theorem abortAlign_sure (s : State) : Sure s (abortAlign s) := by
  unfold abortAlign
  split
  · exact (misalign_sure s).trans (finishAlign_sure _ _ _)
  · exact Sure.refl s

theorem abortSpliceNow_sure (no : Nat) (s : State) : Sure s (abortSpliceNow no s) := by
  unfold abortSpliceNow
  refine Sure.trans ?_ (conclude_sure _ _ _)
  refine (endNow_sure s).trans (changeWishes_sure ?_)
  exact Sure.of_view rfl

theorem abortRunning_sure {no : Nat} {c : Call} {s : State} {r : State × (Await → Bool)} (h : abortRunning no c s = some r) :
    Sure s r.1 := by
  unfold abortRunning at h
  split at h
  case h_9 =>
    split at h
    · cases h
    · cases h; exact abortSpliceNow_sure _ _
  case h_10 => cases h
  all_goals cases h
  · exact abortFetch_sure _ _
  · exact abortFetch_sure _ _
  · exact abortRetire_sure _ _
  · exact abortNotify_sure _ _
  · exact abortRollRetire_sure _ _
  · exact (filterAwaits_sure _ s).trans (conclude_sure _ _ _)
  · exact abortOfStart_sure _ _
  · exact abortAlign_sure _

theorem abortHeld_sure {x : Entry} {s : State} {r : State × (Await → Bool)} (h : abortHeld x s = some r) : Sure s r.1 := by
  unfold abortHeld at h
  split at h
  · cases h; exact concludeUnread_sure _ _ _ _
  · cases h; exact conclude_sure _ _ _
  · exact abortRunning_sure h
  · cases h

theorem abortResult_sure (no : Nat) (c : Code) (target : Nat) (s : State) : Sure s (abortResult no c target s) :=
  enqueue_sure _ _ _

theorem searchRing_sure (no target : Nat) (r : Ring) (l : List Nat) (s : State) : Sure s (searchRing no target r l s) := by
  induction l generalizing s with
  | nil => exact abortResult_sure _ _ _ _
  | cons i rest ih =>
    unfold searchRing
    simp only
    split
    · exact ringFault_sure _ _ _
    · split
      · split
        · exact ((store_sure _ _).trans (store_sure _ _)).trans (enqueue_sure _ _ _)
        · exact ringFault_sure _ _ _
      · exact ih _

theorem decideAbort_good (no target : Nat) (r : Ring) (s : State) : Good s (decideAbort no target r s) := by
  unfold decideAbort
  simp only
  split
  · split
    · rename_i h
      exact ((abortHeld_sure h).trans (abortResult_sure _ _ _ _)).good.trans (retryFor_good _ _)
    · exact (abortResult_sure _ _ _ _).good
  · exact (Sure.ite (abortResult_sure _ _ _ _) (searchRing_sure _ _ _ _ _)).good

theorem passSlot_sure (r : Ring) (s : State) (hr : s.port.state = .ready) : Sure s (passSlot r s) :=
  have g : ∀ {t : State}, t.base = s.base → t.port.state = s.port.state → Sure s t := fun h hp => Sure.of_ready h (fun _ => hp.trans hr)
  Sure.ite (g rfl rfl) (Sure.ite (g rfl rfl) (g rfl rfl))

/-- An entry joins a table with a place free, on a READY port. -/
theorem enterEntry_sure (block : Nat) (abort : Bool) (s : State) (h : s.port.table.length < 16) (hr : s.port.state = .ready) :
    Sure s (enterEntry block abort s) :=
  ⟨⟨rfl, rfl, rfl, rfl, rfl, rfl, rfl, rfl, rfl, rfl, rfl⟩, fun i => { i with
    table := by simp only [State.tableWithin, enterEntry, List.length_append, List.length_singleton]; omega
    held := heldInReady_ready hr }⟩

theorem takeSlot_good (r : Ring) (i block : Nat) (abort : Bool) (s : State) (h : s.port.table.length < 16)
    (hr : s.port.state = .ready) : Good s (takeSlot r i block abort s) := by
  unfold takeSlot
  simp only
  have a : Sure s (enterEntry block abort { s.store [(r.addr + 8 * i + 4, 0)] with
      port.out := some { r with pos := i }, port.examined := 0 }) := by
    refine Sure.trans ?_ (enterEntry_sure _ _ _ h hr)
    exact (store_sure _ s).trans (Sure.of_ready rfl (fun _ => hr))
  exact Good.ite (Good.ite (a.good.trans (decideAbort_good _ _ _ _))
    (Good.ite (a.trans (concludeDuplicate_sure _ _ _)).good a.good)) (ringFault_sure _ _ _).good

theorem examineSlot_good (s : State) : Good s (examineSlot s) := by
  unfold examineSlot
  split
  · rename_i hr _ _
    simp only
    split
    · exact (ringFault_sure _ _ _).good
    · split
      · split
        · exact (Sure.of_ready (s := s) (t := { s with port.scan := .suspended }) rfl (fun _ => hr)).good
        · rename_i h
          exact takeSlot_good _ _ _ _ s (by simpa [Config.tableSize] using h) hr
      · exact (passSlot_sure _ _ hr).good
  · exact Good.refl s

/-- An entry of the table is held under its place in arrival order. -/
theorem holdsEntry_of_mem {s : State} {x : Entry} (h : x ∈ s.port.table) : s.holdsEntry x.no = true := by
  simp only [State.holdsEntry, State.entry, List.find?_isSome]
  exact ⟨x, h, by simp⟩

/-- What a block asks is recorded at its entry, which stays. -/
theorem setReq_holdsEntry (no m : Nat) (q : Req) (c : Call) (s : State) : (setReq no q c s).holdsEntry m = s.holdsEntry m := by
  simp only [State.holdsEntry, State.entry, setReq, State.mapEntry, List.find?_map, Option.isSome_map]
  congr 2
  funext x
  simp only [Function.comp]
  split <;> rfl

/-- A taken entry is in the table. -/
theorem holdsEntry_of_taken {s : State} {block : Nat} {x : Entry} (h : s.takenEntry block = some x) : s.holdsEntry x.no = true :=
  holdsEntry_of_mem (List.mem_of_find?_eq_some h)

theorem admit_good {no : Nat} {q : Req} {c : Call} {decision : State → State}
    (hd : ∀ t : State, t.holdsEntry no = true → Good t (decision t)) (s : State) (e : s.holdsEntry no = true) :
    Good s (admitRequest no q c decision s) := by
  have b : ∀ x, Good s (concludeWith no q x s) := fun x => (concludeWith_sure _ _ _ _).good
  unfold admitRequest
  refine Good.ite (b _) ?_
  cases (if callHasData c then dataFail q.data else none) with
  | some x => exact b x
  | none => exact Good.ite (b _) ((setReq_sure no q c s).good.trans (hd _ ((setReq_holdsEntry _ _ _ _ _).trans e)))

theorem serve_good {q : Req} {c : Call} {decision : Nat → State → State}
    (hd : ∀ no (t : State), t.holdsEntry no = true → Good t (decision no t)) (s : State) : Good s (serve q c decision s) := by
  unfold serve
  split
  · exact Good.refl s
  · rename_i h
    exact admit_good (hd _) s (holdsEntry_of_taken h)

theorem readBlock_good (x : Entry) (s : State) (e : s.holdsEntry x.no = true) : Good s (readBlock x s) := by
  have b : ∀ q a, Good s (concludeWith x.no q a s) := fun q a => (concludeWith_sure _ _ _ _).good
  unfold readBlock
  split
  · exact (concludeUnread_sure _ _ _ _).good
  · simp only
    refine Good.ite (b _ _) (Good.ite (b _ _) ?_)
    split
    · exact b _ _
    · split
      · exact b _ _
      · exact admit_good (fun t => decideCall_good _ _ _ t) s e
      · exact b _ _

theorem blockRead_good (block : U32) (s : State) : Good s (blockRead block s) := by
  unfold blockRead
  split
  · exact Good.refl s
  · rename_i h
    exact readBlock_good _ _ (holdsEntry_of_taken h)

theorem fetchDone_good (buf : BufferId) (s : State) : Good s (fetchDone buf s) := by
  unfold fetchDone
  split
  · exact Good.refl s
  · exact (endFetch_sure _ _).good.trans (retryFor_good _ _)

/-! ### What came about outside -/

theorem tick_inv {s : State} (n : Nat) (h : Inv s) : Inv (tick n s) := { h with }

theorem arrive_inv {s : State} (e : Env) (h : Inv s) : Inv (arrive e s) :=
  { h with mem := Memory.foldl_write_wf h.mem _ }

end Sys2Proof.Machine
end

