-- ==== Sys2Proof/Laws/Requests.lean ====
section
/-! SUPPORT. What a command of a request row does, said once: when it reaches the owning block (`dispatches`), the answer is the block's
decision, with the end of the event where the row may wake the head. -/

namespace Sys2Proof.Machine

/-- A request that reaches its owner is decided by it. -/
theorem serve_of_dispatches {e : Env} {q : Req} {c : Call} {s : State} {x : Entry} (h : dispatches e q c s x = true)
    (d : Nat → State → State) : serve q c d (arrive e s) = d x.no (dispatched e q c s x) := by
  simp only [dispatches, Bool.and_eq_true, Bool.or_eq_true, Bool.not_eq_true', beq_iff_eq, bne_iff_ne, ne_eq, decide_eq_true_eq]
    at h
  obtain ⟨⟨⟨h1, h2⟩, h3⟩, h4⟩ := h
  have hn : (if callHasData c = true then dataFail q.data else none) = none := by
    rcases h3 with h3 | h3
    · simp [h3]
    · split
      · exact Option.isNone_iff_eq_none.1 h3
      · rfl
  unfold serve admitRequest dispatched
  rw [h1]
  simp only [h2, not_true_eq_false, ite_false]
  rw [hn]
  simp only
  rw [if_neg]
  rintro ⟨a, b⟩
  rcases h4 with h4 | h4
  · exact h4 a
  · omega

/-- A row whose request may wake the head. -/
theorem request_of_dispatches {e : Env} {q : Req} {c : Call} {s : State} {x : Entry} (h : dispatches e q c s x = true)
    (d : Nat → State → State) : request e q c d s = .next (settle (d x.no (dispatched e q c s x))) := by
  rw [request, serve_of_dispatches h]

/-- A row whose request only reads. -/
theorem query_of_dispatches {e : Env} {q : Req} {c : Call} {s : State} {x : Entry} (h : dispatches e q c s x = true)
    (d : Nat → State → State) : query e q c d s = .next (d x.no (dispatched e q c s x)) := by
  rw [query, serve_of_dispatches h]

/-- The state in which a request is decided is the one after the command's arrival, but for the entry that now knows it. -/
theorem dispatched_frame (e : Env) (q : Req) (c : Call) (s : State) (x : Entry) :
    { dispatched e q c s x with port.table := (arrive e s).port.table } = arrive e s := rfl

end Sys2Proof.Machine
end

