-- ==== Sys2Proof/Tests/Slice0.lean ====
section
/-! SUPPORT. Tests: the well-formedness checks, the decoding of a written-out block, worked figures of the spec, and for each statement of
the provers a state and operands that meet its hypotheses, for each clause. -/

namespace Sys2Proof.Tests

open Sys2Proof.Machine

-- The tests are evaluated one after another: side by side, each evaluation in the kernel would hold a thread of its own.
set_option Elab.async false

/-! ### Well-formedness: each check refuses an ill-formed command (R166, R167) -/

/-- A request of block 1000h with a sense allocation, a key and a data area. -/
def req (sense : U8) (key : U32) (data : DataArea) : Req := ⟨0x1000, sense, key, data⟩

theorem test_wf_sense_2 : (Instr.hold Env.quiet (req 2 0 (.contiguous 0 0))).wf = false := by decide
theorem test_wf_sense_7 : (Instr.hold Env.quiet (req 7 0 (.contiguous 0 0))).wf = false := by decide
theorem test_wf_sense_65 : (Instr.hold Env.quiet (req 65 0 (.contiguous 0 0))).wf = false := by decide
theorem test_wf_sense_64 : (Instr.hold Env.quiet (req 64 0 (.contiguous 0 0))).wf = true := by decide
theorem test_wf_no_segment : (Instr.readRoll Env.quiet (req 0 0 (.segmented []))).wf = false := by decide
theorem test_wf_17_segments : (Instr.readRoll Env.quiet (req 0 0 (.segmented (List.replicate 17 ⟨0, 1⟩)))).wf = false := by decide
theorem test_wf_zero_segment : (Instr.readRoll Env.quiet (req 0 0 (.segmented [⟨0, 8⟩, ⟨8, 0⟩]))).wf = false := by decide
/-- A kind without a data area ignores the segmented flag (R167). -/
theorem test_wf_ignored_segments : (Instr.hold Env.quiet (req 0 0 (.segmented []))).wf = true := by decide

/-! ### Decoding -/

/-- The table gives no row bits. -/
theorem test_no_table_word : decodeTableWord 8 0x3D = none := by decide

/-- Set Fibre Class of class 2 with theta 1,400 (0578h), Tmax 1,900 (076Ch), D 24,000 (5DC0h) and k 200 (C8h), written out by
11_formats.md. -/
theorem test_decode_set_fibre_class :
    decodeCall 0x10 false [2, 0, 0x78, 0x05, 0x6C, 0x07, 0xC0, 0x5D, 0, 0, 0xC8, 0] =
      some (.setFibreClass ⟨2, 1400, 1900, 24000, 200⟩) := by decide
theorem test_decode_clear_fibre_class : decodeCall 0x10 true [2] = some (.clearFibreClass 2) := by decide
theorem test_decode_set_speed : decodeCall 0x40 false [0x96, 0] = some (.setSpeed 150) := by decide
theorem test_decode_stop_cut : decodeCall 0x3C true [] = some (.stop true) := by decide
theorem test_decode_no_kind : decodeCall 0x05 false [] = none := by decide

/-! ### Worked figures of the spec -/

/-- The line constants of 12_worked_sequences.md. -/
def consts : Consts :=
  { p := 8000, q := 3000, dEntry := 3000, zone1 := 16, zone2 := 16, zone3 := 16, zone4 := 16, cap := 100000, reserve := 40000
    rs := 100000, overlap := 600, guardLen := 1000, gap := 1000, overtravel := 10, window := 1, missTolerance := 2
    stopOnTwo := true, startTimeout := 10, spliceTimeout := 20 }

/-- The page of slot 7 of 01_the_pattern_library.md. -/
def page7 : Page :=
  { name := List.replicate 8 0x41, base := 4, waist := 400, hem := 300, motif := 3
    groups := [⟨.knifeRight, 6, 250, 120, 10⟩, ⟨.box, 1, 400, 100, 20⟩] }

/-- 02_pleat_arithmetic.md: folded at size 5 with k = 200, T is 12,408 and the output length 6,776. -/
theorem test_measure_size_5 : (page7.measure 5 200).t = 12408 ∧ (page7.measure 5 200).out = 6776 := by decide +kernel
/-- 12_worked_sequences.md: at its base size, T is 12,163 and the output length 6,531. -/
theorem test_measure_base_size : (page7.measure 4 200).t = 12163 ∧ (page7.measure 4 200).out = 6531 := by decide +kernel
/-- 07_steam_setting.md, R112: a leap threshold is tested before the band. -/
theorem test_control_leap : controlLaw ⟨20, 200, 10, 10, 100, 50⟩ 1650 1751 500 = 450 := by decide
theorem test_control_clamp : controlLaw ⟨20, 200, 10, 10, 100, 50⟩ 1650 1600 995 = 1000 := by decide
/-- R144: a deadline is reached modulo 2^32. -/
theorem test_elapsed_wraps : elapsed 0 0xFFFFFFFF = 1 := by decide

/-! ### A machine for the witnesses -/

/-- The READY interface with the request of block 1000h taken. -/
def taken : Entry := ⟨1, 0x1000, false, .taken, none⟩

/-- The part with its constants set, a READY interface with rings of four slots, and one request taken. -/
def base : State :=
  { State.reset with
    line.consts := some consts
    port := { Port.initial with
      state := .ready, out := some ⟨0x8000, 4, 3⟩, ret := some ⟨0x9000, 4, 0⟩, table := [taken], nextNo := 2 } }

/-- The base in a line state. -/
def inState (st : LineState) : State := { base with line.state := st }

/-- The request of block 1000h with a key and a data area of 72 bytes. -/
def ask (key : U32) : Req := req 0 key (.contiguous 0x2000 72)

/-- The request of a key reaches its owner. -/
abbrev Hits (key : U32) (c : Call) (s : State) : Prop := dispatches Env.quiet (ask key) c s taken = true

/-- The state in which it is decided. -/
abbrev hit (key : U32) (c : Call) (s : State) : State := dispatched Env.quiet (ask key) c s taken

/-- A roll of class 2. -/
def roll (tag : Nat) (st : RollState) (sp : Option SpindleId) : Roll := ⟨tag, 1200000, 2, 14500, st, sp, 0, 0, none⟩

/-- The base with rolls in its table and class 2 VALID. -/
def withRolls (rs : List Roll) : State :=
  { base with turret.rolls := rs, turret.classes := base.turret.classes.set 1 (some ⟨1400, 1900, 24000, 200⟩) }

/-- Slot 7 of the base given contents. -/
def withSlot (x : Slot) : State := { base with lib.slots := base.lib.slots.set 7 x }

/-- A slot that holds the page on both pages. -/
def slot7 : Slot := { freeSlot with state := .active, pageA := some page7, pageB := some page7, live := some .a }

/-- An order of pattern 7 at size 5. -/
def order (st : OrderState) : Order :=
  { tag := 420, pattern := 7, size := 5, cls := .normal, n := 2, m := 2, formed := 0, good := 0, reject := 0, remakeLimit := 1
    remakes := 0, marks := none, page := none, live := 0, cancel := false, watch := none, state := st }

/-- A panel of that order. -/
def panel (st : PanelState) : Panel :=
  { id := 17, state := st, order := 420, pattern := 7, page := .a, size := 5, roll := 41001, segment := none, k := 200
    takeup := 12408, out := 6776, strokes := 28, formed := 28, missed := 0, minDose := some 24000, peak := 1650, started := 0
    exitTime := some 0, unregistered := false, cut := false, purged := false, verdict := some .good
    reasons := ⟨false, false, false, false, false, false⟩ }

/-- A stage of the held request. -/
def held (st : Stage) (c : Call) : State :=
  { base with port.table := [⟨1, 0x1000, false, st, some (ask 0, c)⟩] }

/-- An order of pattern 7 with every field at a bound, FREE and MARKED. -/
def orderArgs (notify : Bool) (reg : U8) : OrderArgs := ⟨notify, 7, 5, 2, reg, 999, 15, 12, 5000, 20000⟩

/-- Bytes put into shared memory. -/
def poke (a : Nat) (bs : List Byte) (s : State) : State :=
  { s with mem := (spread a bs).foldl (fun m p => m.write p.1 p.2) s.mem }

/-- A segment of roll 41001, closed at an O end or open. -/
def segment (kind : SegKind) (oEnd : Option Nat) : Segment := ⟨41, kind, 41001, none, 0, oEnd, 0, oEnd⟩

/-- A unit in flight. -/
def flying (fold : Bool) (strokes : List Stroke) : Flight := ⟨⟨fold, 500, 500, strokes, none⟩, 0, false, none⟩

/-- Memory and the base meet the invariants that the statements ask for. -/
theorem test_base_mem : base.mem.wf = true := by decide

/-! ### Witnesses: each theorem shows states and operands that meet the hypotheses of the statement it names, clause by clause -/

theorem test_witness_EmptyQueuePassesAMillisecond : base.pending = [] := rfl

/-- The part at rest in a line state, a while after power-on. -/
def resting (st : LineState) (c : Option HaltCause) : State :=
  { State.reset with line.state := st, line.cause := c, line.clock := 7 }

theorem test_resting_inv (st : LineState) (c : Option HaltCause)
    (h : (st, c) ∈ [(LineState.off, none), (.standby, none), (.halt, some .estop)]) : Inv (resting st c) := by
  simp only [List.mem_cons, List.not_mem_nil, or_false, Prod.mk.injEq] at h
  refine ⟨rfl, ⟨rfl, rfl, rfl, rfl⟩, ⟨⟨trialSlot, rfl, rfl, rfl, rfl, rfl, rfl, rfl⟩, ?_, ?_⟩, ?_,
    ⟨Nat.le_refl 5, (by decide : 5 ≤ 40), (by decide : 5 ≤ 40), Nat.le_refl 40⟩, ?_, ?_, ?_, ?_, Nat.zero_le _, fun _ => ?_, ?_, ?_, ?_⟩
  · intro f hf; cases hf
  · intro f hf; cases hf
  · intro k hk; cases hk
  · rcases h with ⟨rfl, rfl⟩ | ⟨rfl, rfl⟩ | ⟨rfl, rfl⟩ <;> exact ⟨rfl, rfl⟩
  · exact ⟨rfl, fun _ => rfl⟩
  · intro r hr; cases hr
  · exact List.nodup_nil
  · exact ⟨⟨rfl, rfl, rfl, rfl, rfl, rfl⟩, ⟨rfl, rfl, (by decide : ∀ x ∈ State.reset.lib.slots, x.busy = false ∧ x.watch = none)⟩,
      nofun, ⟨nofun, rfl, rfl, rfl⟩, rfl, nofun⟩
  · rcases h with ⟨rfl, rfl⟩ | ⟨rfl, rfl⟩ | ⟨rfl, rfl⟩ <;> rfl
  · rcases h with ⟨rfl, rfl⟩ | ⟨rfl, rfl⟩ | ⟨rfl, rfl⟩ <;> rfl
  · rcases h with ⟨rfl, rfl⟩ | ⟨rfl, rfl⟩ | ⟨rfl, rfl⟩ <;> exact ⟨by decide, fun _ => rfl⟩

/-- A running machine meets the premise of the invariant statement. -/
theorem test_witness_EveryStepKeepsTheInvariants :
    Inv (resting .standby none) ∧ step (resting .standby none) = .next (tick 1 (resting .standby none)) :=
  ⟨test_resting_inv _ _ (by decide), rfl⟩

theorem test_witness_ClockRunsThroughEveryCommand : ∀ e l, Instr.markSensor Env.quiet ≠ .powerOn e l := by
  intro e l h; cases h

/-- The three states of the control window, and both kinds of address. -/
theorem test_witness_WritesOfTheControlWindow :
    State.reset.port.state = .uninitialised ∧ ({ base with port.state := .initFailed } : State).port.state = .initFailed ∧
    ({ base with port.state := .initialising } : State).port.state = .initialising ∧ base.port.state = .ready ∧
    base.port.scan = .idle ∧ ({ base with port.scan := .active } : State).port.scan ≠ .idle ∧ (0x7000 : U32) ≠ 0 := by decide

/-- An initialisation block at 7000h: its rings, their counts and its constants flag. -/
def initialising (out n ret m flag : Nat) (k : Consts) : State :=
  poke 0x7000 (le 4 out ++ le 2 n ++ le 2 m ++ le 4 ret ++ [b8 flag, 0, 0, 0] ++ constsBytes k)
    { State.reset with port.state := .initialising, port.initBlock := some 0x7000 }

/-- What the bootstrap finds in that block: whether its rings pass, and its flag. -/
def foundBlock (s : State) : Option (Bool × Bool × Bool) :=
  (s.load (addrs 0x7000 52)).map (fun bs =>
    (ringsOk (u32At bs 0).toNat (u16At bs 4).toNat (u32At bs 8).toNat (u16At bs 6).toNat, bitSet (byteAt bs 12).toNat 0,
      (constsFirstFail (parseConsts (bs.drop 16)) s.line.store).isNone))

/-- Slot counts 4 and 64 and rings that touch pass; 3, 65 and rings that overlap do not; an area past the last address faults. -/
theorem test_witness_BootstrapEndsReadyOrFailed :
    foundBlock (initialising 0x8000 4 0x8020 64 0 consts) = some (true, false, true) ∧
    foundBlock (initialising 0x8000 64 0x8200 4 1 consts) = some (true, true, true) ∧
    foundBlock (initialising 0x8000 64 0x8200 4 1 { consts with p := 1999 }) = some (true, true, false) ∧
    foundBlock (initialising 0x8000 3 0x8020 4 0 consts) = some (false, false, true) ∧
    foundBlock (initialising 0x8000 4 0x9000 65 0 consts) = some (false, false, true) ∧
    foundBlock (initialising 0x8000 4 0x801F 4 0 consts) = some (false, false, true) ∧
    base.load (addrs (2 ^ 32 - 51) 52) = none ∧ (initialising 0x8000 4 0x8020 64 0 consts).line.state = .off ∧
    (initialising 0x8000 4 0x8020 64 0 consts).head.arrival = none := by decide +kernel

/-- A completion waiting for the return slot at 9000h. -/
def posting (b : Byte) (faults : List Span) : State :=
  poke 0x9004 [b] { base with port.posting := [⟨1, false, 0, 0x1000, true⟩], bus := ⟨faults, []⟩ }

theorem test_witness_PostsGoOutInOrder :
    let item : PostItem := ⟨1, false, 0, 0x1000, true⟩
    let empty := fun (s : State) => { s with port.posting := [] }
    (posting 0 []).port.state = .ready ∧ (posting 0 []).port.ret = some ⟨0x9000, 4, 0⟩ ∧
    (posting 1 []).load [0x9004] = some [1] ∧ (posting 0 []).load [0x9004] = some [0] ∧
    (posting 0 []).storeOk (slotBytes 0x9000 item) = true ∧ (posting 0 [⟨0x9004, 1⟩]).load [0x9004] = none ∧
    (empty (posting 0 [⟨0x9004, 1⟩])).load [0x9004] = none ∧ (empty (posting 0 [])).load [0x9004] = some [0] ∧
    ({ posting 0 [] with bus := ⟨[], [⟨0x9000, 1⟩]⟩ } : State).storeOk (slotBytes 0x9000 item) = false := by decide +kernel

/-- R171, R172: the slot after the last post is examined: a fault there is a ring fault of return slot 1, the post standing. -/
theorem test_next_slot_examined :
    (examineReturn (posting 0 [⟨0x900C, 1⟩])).port.state = .initFailed ∧
    (examineReturn (posting 0 [⟨0x900C, 1⟩])).mem.read 0x9004 = 1 ∧ (examineReturn (posting 0 [])).port.state = .ready := by
  decide +kernel

/-- An ACTIVE scan that has examined slots, the outbound slots 0 and 3 holding a state. -/
def scanning (st : Byte) (examined held : Nat) (again : Bool) : State :=
  poke 0x8000 ([0, 0x10, 0, 0, st]) (poke 0x8018 ([0, 0x10, 0, 0, st]) { base with
    port.scan := .active, port.examined := examined, port.rescan := again, port.table := List.replicate held taken })

/-- The slots FREE, POSTED and ABORT; 15 and 16 entries held; the block named held by another entry and by none. -/
theorem test_witness_ScanTakesPostedSlots :
    let holds := fun (s : State) => s.port.table.any (fun y => !y.abort && y.block == 0x1000)
    (scanning 0 2 1 false).readSlot 0x8010 = some (0, 0) ∧ (scanning 0 3 1 true).readSlot 0x8018 = some (0x1000, 0) ∧
    (scanning 1 0 15 false).readSlot 0x8000 = some (0x1000, 1) ∧ (scanning 2 0 15 false).readSlot 0x8000 = some (0x1000, 2) ∧
    (scanning 1 0 16 false).port.table.length = 16 ∧ (scanning 1 0 15 false).port.table.length = 15 ∧
    holds (scanning 1 0 15 false) = true ∧ holds (scanning 1 0 0 false) = false ∧
    (scanning 1 0 15 false).storeOk [(0x8004, 0)] = true ∧ (scanning 0 3 1 true).port.out = some ⟨0x8000, 4, 3⟩ := by
  decide +kernel

/-- A slot that faults as it is read, with slots before it that do not, and one that faults as it is written FREE, by the scan and by the
search of an abort. -/
theorem test_witness_RingFaultsDropRequests :
    let reads := { scanning 1 1 1 false with bus := ⟨[⟨0x8008, 1⟩], []⟩ }
    let writes := { scanning 2 0 15 false with bus := ⟨[], [⟨0x8004, 1⟩]⟩ }
    reads.port.state = .ready ∧ reads.port.scan = .active ∧ reads.port.out = some ⟨0x8000, 4, 3⟩ ∧
    reads.load (addrs 0x8008 8) = none ∧ writes.readSlot 0x8000 = some (0x1000, 2) ∧ writes.port.table.length = 15 ∧
    writes.storeOk [(0x8004, 0)] = false ∧ reads.port.table.any (fun y => !y.abort && y.block == 0x3000) = false ∧
    reads.readSlot 0x8000 = some (0x1000, 1) ∧ reads.readSlot 0x8008 = none ∧
    ({ scanning 1 0 0 false with bus := ⟨[], [⟨0x8004, 1⟩]⟩ } : State).readSlot 0x8000 = some (0x1000, 1) ∧
    ({ scanning 1 0 0 false with bus := ⟨[], [⟨0x8004, 1⟩]⟩ } : State).storeOk [(0x8004, 0)] = false := by decide +kernel

/-- A held request in each stage, and in RUNNING for each owner. -/
theorem test_witness_AbortsByTheTargetsStage :
    let found := fun (s : State) => s.port.table.find? (fun y => !y.abort && y.block == 0x1000 && y.stage != .posting)
    let runs := fun (c : Call) => found (held .running c) = some ⟨1, 0x1000, false, .running, some (ask 0, c)⟩
    let watched := { order .queued with watch := some 1 }
    found base = some taken ∧
    found (held (.waiting .buffers) .definePattern) = some ⟨1, 0x1000, false, .waiting .buffers, some (ask 0, .definePattern)⟩ ∧
    (runs .definePattern ∧ runs .amendPattern ∧ runs .retirePattern ∧ runs (.placeOrder (orderArgs true 0)) ∧ runs .retireRoll ∧
      runs .awaitPanelExit ∧ runs .start ∧ runs .alignBlade ∧ runs .spliceNow ∧ runs (.stop true)) ∧
    ({ base with lib.bufA := some ⟨1, 7, false⟩ } : State).lib.bufA = some ⟨1, 7, false⟩ ∧ base.lib.bufA = none ∧
    ({ base with orders := [watched] } : State).orders.find? (fun y => y.watch == some 1) = some watched ∧
    (inState .starting).line.state = .starting ∧ (inState .hold).line.state ≠ .starting ∧
    base.turret.seq ≠ .pressing ∧ ({ base with turret.seq := .pressing } : State).turret.seq = .pressing := by decide

/-- R172, R173: the completion of an abort's target meets a ring fault: the abort is dropped with it, and its result is not posted. -/
theorem test_abort_dropped :
    let s := fun (faults : List Span) => { held .running .retireRoll with
      bus := ⟨faults, []⟩, port.table := (held .running .retireRoll).port.table ++ [⟨2, 0x1000, true, .taken, none⟩] }
    (decideAbort 2 0x1000 ⟨0x8000, 4, 3⟩ (s [⟨0x9004, 1⟩])).port.posting = [] ∧
    (decideAbort 2 0x1000 ⟨0x8000, 4, 3⟩ (s [⟨0x9004, 1⟩])).port.state = .initFailed ∧
    (decideAbort 2 0x1000 ⟨0x8000, 4, 3⟩ (s [])).mem.read 0x9004 = 1 ∧
    (decideAbort 2 0x1000 ⟨0x8000, 4, 3⟩ (s [])).mem.read 0x900C = 2 := by decide +kernel

/-- A target in POSTING, one that slot 0 names, the first that the search reads, and one that is nowhere. -/
theorem test_witness_AbortsByTheTargetsStage_notHeld :
    let mine := fun (target : Nat) (y : Entry) => !y.abort && y.block == target
    (held .posting .hold).port.table.any (mine 0x1000) = true ∧
    (∀ y ∈ (held .posting .hold).port.table, mine 0x1000 y = true → y.stage = .posting) ∧
    base.port.table.any (mine 0x3000) = false ∧
    (List.range 4).all (fun j => base.readSlot (0x8000 + 8 * j) == some (0, 0)) = true ∧
    (scanning 1 0 0 false).port.table.any (mine 0x1000) = false ∧ (scanning 1 0 0 false).port.out = some ⟨0x8000, 4, 3⟩ ∧
    (scanning 1 0 0 false).readSlot 0x8000 = some (0x1000, 1) ∧ (scanning 1 0 0 false).storeOk [(0x8004, 0)] = true := by
  decide +kernel

/-- The block of request 1000h with a kind and a sense allocation. -/
def block (kind sense : Byte) : State := poke 0x1000 [kind, 0, sense, 0xFF, 0, 0, 0, 0, 72, 0] base

theorem test_witness_BlockReadDispatches :
    (∃ bs, (block 0x29 64).load (addrs 0x1000 32) = some bs ∧ senseOk (parseHeader bs).sense.toNat = true ∧
      kindNamed (parseHeader bs).kind = true) ∧
    (∃ bs, (block 0x29 65).load (addrs 0x1000 32) = some bs ∧ senseOk (parseHeader bs).sense.toNat = false) ∧
    (∃ bs, (block 0x05 8).load (addrs 0x1000 32) = some bs ∧ senseOk (parseHeader bs).sense.toNat = true ∧
      kindNamed (parseHeader bs).kind = false) ∧
    (∃ ps, (block 0x29 64).load (addrs 0x1020 32) = some ps ∧ decodeCall 0x29 false ps = some .awaitPanelExit) ∧
    (∃ bs, ({ block 0x29 64 with bus := ⟨[⟨0x1020, 1⟩], []⟩ } : State).load (addrs 0x1000 32) = some bs) ∧
    ({ block 0x29 64 with bus := ⟨[⟨0x1020, 1⟩], []⟩ } : State).load (addrs 0x1020 32) = none ∧
    base.takenEntry 0x1000 = some taken ∧ base.heldAwaits.length < 4 ∧ (held .running .awaitPanelExit).heldAwaits.length = 1 ∧
    (held .posting .awaitPanelExit).heldAwaits.length = 1 := by
  refine ⟨⟨_, rfl, ?_⟩, ⟨_, rfl, ?_⟩, ⟨_, rfl, ?_⟩, ⟨_, rfl, ?_⟩, ⟨_, rfl⟩, ?_⟩ <;> decide +kernel

/-- A request in each stage, and each request that can wait reaching its owner. -/
theorem test_witness_WaitingRequestsAreRetried :
    (base.port.table.map Entry.no).Pairwise (· < ·) ∧
    (held (.waiting (.slot 7)) .definePattern).entry 1 =
      some ⟨1, 0x1000, false, .waiting (.slot 7), some (ask 0, .definePattern)⟩ ∧
    base.entry 1 = some taken ∧ (∀ w, taken.stage ≠ .waiting w) ∧ Hits 7 .definePattern base ∧ Hits 7 .amendPattern base ∧
    Hits 7 .retirePattern base ∧ Hits 420 (.placeOrder (orderArgs true 0)) base ∧
    Hits 41001 (.amendRoll ⟨true, true, true, 0, 0, 0⟩) base ∧ Hits 41001 .retireRoll base := by
  refine ⟨?_, ?_, ?_, fun w h => ?_, ?_⟩
  case _ => decide +kernel
  case _ => decide +kernel
  case _ => decide +kernel
  case _ => cases h
  case _ => decide +kernel

/-- A byte just below the sense area and one just above it, for two allocations; a block that ends with the last address. -/
theorem test_witness_CompletionWritesItsFields :
    base.mem.wf = true ∧ 0x103F ∉ [0x1003, 0x1004, 0x1005, 0x1008, 0x1009] ∧ 0x103F < 0x1000 + 0x40 ∧
    0x1000 + 0x40 + senseRoom 8 ≤ 0x1048 ∧ 0x1000 + 0x40 + senseRoom 64 ≤ 0x1080 ∧ base.bus.writes = [] ∧ (0xFFFFFF80 : U32).toNat + 0x80 ≤ 2 ^ 32 := by
  decide

theorem test_witness_CompletionsAndQueriesChangeNothingElse_completion : (conclude 1 done (held .running .hold)).port.state = (held .running .hold).port.state := by
  decide +kernel

/-- The port state a command leaves. -/
def portAfter (c : Instr) (s : State) : Option PortState :=
  match exec c s with
  | .next t => some t.port.state
  | _ => none

theorem test_witness_CompletionsAndQueriesChangeNothingElse_queries :
    portAfter (.readLineStatus Env.quiet (ask 0) true) base = some base.port.state ∧
    portAfter (.readRoll Env.quiet (ask 0)) base = some base.port.state := by decide +kernel

/-- Pattern 1, the least number that Define takes, and 47, the greatest. -/
theorem test_witness_PatternRequestsByTheirSlot_pages :
    Hits 1 .definePattern base ∧ ((hit 1 .definePattern base).slot 1).busy = false ∧
    ((hit 1 .definePattern base).slot 1).state = .free ∧ Hits 47 .amendPattern base ∧
    ((hit 47 .amendPattern base).slot 47).state = .free ∧ ((hit 7 .amendPattern (withSlot slot7)).slot 7).state ≠ .free ∧
    ((hit 7 .definePattern (withSlot slot7)).slot 7).busy = false ∧ Hits 7 .definePattern (withSlot slot7) ∧
    Hits 7 .amendPattern (withSlot slot7) := by decide +kernel

theorem test_witness_PatternRequestsByTheirSlot_numbers :
    Hits 48 .definePattern base ∧ Hits 0 .amendPattern base ∧ Hits 48 .retirePattern base ∧
    Hits 7 .retirePattern (withSlot { slot7 with busy := true }) ∧
    (hit 7 .retirePattern (withSlot { slot7 with busy := true })).slot 7 = { slot7 with busy := true } ∧
    Hits 7 .retirePattern (withSlot { slot7 with uses := 1 }) ∧
    (hit 7 .retirePattern (withSlot { slot7 with uses := 1 })).slot 7 = { slot7 with uses := 1 } ∧
    (hit 7 .retirePattern (withSlot slot7)).slot 7 = slot7 ∧ (hit 47 .retirePattern base).slot 47 = freeSlot ∧
    (hit 7 .retirePattern (withSlot { slot7 with state := .retiring })).slot 7 = { slot7 with state := .retiring } ∧
    (hit 7 .retirePattern (withSlot { slot7 with state := .retiring, watch := some 0 })).slot 7 =
      { slot7 with state := .retiring, watch := some 0 } := by decide +kernel

/-- A fetch of slot 7 in buffer A, the page in the data area of its request, and the orders present. -/
def fetching (amend : Bool) (x : Slot) (os : List Order) : State :=
  poke 0x2000 page7.bytes { withSlot { x with busy := true } with
    lib.bufA := some ⟨1, 7, amend⟩, orders := os
    port.table := [⟨1, 0x1000, false, .running, some ({ ask 7 with data := .contiguous 0x2000 32 }, .amendPattern)⟩] }

/-- The page that the fetch reads. -/
def fetched (s : State) : Except Answer Page := s.fetchPage (.contiguous 0x2000 32)

theorem test_witness_PageFetchEnds :
    (fetching false freeSlot []).buffer .a = some ⟨1, 7, false⟩ ∧ fetched (fetching false freeSlot []) = .ok page7 ∧
    (∃ a, (fetching false freeSlot []).fetchPage (.contiguous 0x2000 15) = .error a) ∧
    fetched (fetching true slot7 [order .queued]) = .ok page7 ∧ ((fetching true slot7 []).slot 7).state ≠ .free ∧
    amendFail page7 [order .queued] = none ∧ (fetching true slot7 [order .forming]).formingOf 7 = true ∧
    (fetching true slot7 [order .queued]).formingOf 7 = false ∧
    (amendFail { page7 with groups := [⟨.box, 1, 200, 100, -20⟩] } [{ order .queued with size := 11 }]).isSome = true := by
  refine ⟨by decide, by decide +kernel, ⟨_, rfl⟩, ?_⟩
  decide +kernel

/-- Size 11 and class 8 are the greatest; a page out of limits. -/
theorem test_witness_ReadAndMeasurePattern :
    Hits 7 (.readPattern true) (withSlot slot7) ∧ Hits 7 (.measurePattern ⟨11, 8⟩) (withSlot slot7) ∧
    Hits 7 (.measurePattern ⟨5, 0⟩) (withSlot slot7) ∧ (hit 7 (.readPattern true) (withSlot slot7)).slot 7 = slot7 ∧
    slot7.nextPage = some page7 ∧ page7.gradeCheck 5 = none ∧ (page7.measure 5 0).ok = true ∧
    ({ page7 with motif := 64 }.measure 5 0).ok = false ∧ { page7 with motif := 64 }.gradeCheck 5 = none ∧
    ({ page7 with groups := [⟨.box, 1, 200, 100, -20⟩] }.gradeCheck 11).isSome = true := by decide +kernel

/-- Pattern 48, size 12 and class 9, each the first out of range; a busy slot, a FREE one, and an EMPTY class. -/
theorem test_witness_ReadAndMeasurePattern_refused :
    let busy := withSlot { slot7 with busy := true }
    Hits 48 (.measurePattern ⟨12, 9⟩) base ∧ Hits 47 (.measurePattern ⟨12, 9⟩) base ∧ Hits 0 (.measurePattern ⟨11, 9⟩) base ∧
    Hits 7 (.measurePattern ⟨11, 8⟩) busy ∧ ((hit 7 (.measurePattern ⟨11, 8⟩) busy).slot 7).busy = true ∧
    Hits 47 (.measurePattern ⟨0, 0⟩) base ∧ ((hit 47 (.measurePattern ⟨0, 0⟩) base).slot 47).busy = false ∧
    ((hit 47 (.measurePattern ⟨0, 0⟩) base).slot 47).state = .free ∧
    (hit 7 (.measurePattern ⟨11, 8⟩) (withSlot slot7)).slot 7 = slot7 ∧
    (hit 7 (.measurePattern ⟨11, 8⟩) (withSlot slot7)).fibre 8 = none := by decide +kernel

theorem test_witness_ClassesAndRollsEntered_classes :
    Hits 0 (.setFibreClass ⟨8, 2000, 2100, 40, 800⟩) base ∧ Hits 0 (.setFibreClass ⟨1, 600, 700, 39, 0⟩) base ∧
    classFail ⟨8, 2000, 2100, 40, 800⟩ = none ∧ (classFail ⟨1, 600, 700, 39, 0⟩).isSome = true := by decide +kernel

/-- Classes 0 and 9 are out of range; 8 is EMPTY; 2 is VALID and named, then not. -/
theorem test_witness_ClearFibreClassFollowsR36 :
    Hits 0 (.clearFibreClass 0) base ∧ Hits 0 (.clearFibreClass 9) base ∧ Hits 0 (.clearFibreClass 8) base ∧
    (hit 0 (.clearFibreClass 8) base).fibre 8 = none ∧ Hits 0 (.clearFibreClass 2) (withRolls [roll 41001 .staged none]) ∧
    (hit 0 (.clearFibreClass 2) (withRolls [roll 41001 .staged none])).turret.rolls.filter (fun r => r.cls == 2) =
      [roll 41001 .staged none] ∧
    (hit 0 (.clearFibreClass 2) (withRolls [])).fibre 2 ≠ none ∧ Hits 0 (.clearFibreClass 2) (withRolls []) := by decide +kernel

theorem test_witness_ReadFibreClassReports :
    Hits 0 (.readFibreClass 9) base ∧ Hits 0 (.readFibreClass 1) base ∧ Hits 0 (.readFibreClass 2) (withRolls []) ∧
    (hit 0 (.readFibreClass 1) base).turret.classes[0]? = some none ∧
    (hit 0 (.readFibreClass 2) (withRolls [])).turret.classes[1]? = some (some ⟨1400, 1900, 24000, 200⟩) := by decide +kernel

/-- Lengths at both bounds, an eighth roll and a ninth. -/
theorem test_witness_ClassesAndRollsEntered_rolls :
    let few := withRolls (List.replicate 7 (roll 41001 .staged none))
    let full := withRolls (List.replicate 8 (roll 41001 .spent none))
    Hits 0 (.registerRoll ⟨100001, 2, 0⟩) base ∧ Hits 41002 (.registerRoll ⟨100001, 2, 0⟩) few ∧
    Hits 41002 (.registerRoll ⟨20000000, 2, 0⟩) full ∧ few.turret.rolls.length < 8 ∧ 8 ≤ full.turret.rolls.length ∧
    few.fibre 2 ≠ none ∧ few.findRoll 41002 = none ∧ full.findRoll 41002 = none ∧ few.line.consts = some consts ∧
    consts.rs + 1 ≤ 100001 ∧ Hits 41002 (.registerRoll ⟨1, 2, 0⟩) { State.reset with port := base.port } := by decide +kernel

/-- A RUNNING roll in and out of a press, a length at its least, and one too short. -/
theorem test_witness_RollsAmendedAndRetired_amend :
    let run := { roll 41001 .running (some .a) with u := 100000 }
    let s := withRolls [run]
    let p := { s with turret.seq := .pressing, turret.outgoing := some ⟨41001, .a⟩ }
    Hits 41001 (.amendRoll ⟨true, false, true, 100001, 0, 1⟩) s ∧ Hits 41001 (.amendRoll ⟨true, true, false, 100000, 2, 1⟩) s ∧
    Hits 41001 (.amendRoll ⟨false, false, true, 0, 0, 1⟩) p ∧ s.findRoll 41001 = some run ∧ s.inPress 41001 = false ∧
    (Hits 41001 (.amendRoll ⟨true, true, true, 100001, 9, 1⟩) s ∧ run.state = .running) ∧
    p.inPress 41001 = true ∧ run.u < 100001 ∧ consts.rs < 100001 ∧ ¬ (run.u < 100000) ∧
    Hits 41001 (.amendRoll ⟨false, true, false, 0, 2, 1⟩) (withRolls [roll 41001 .staged none]) := by decide +kernel

theorem test_witness_ReadsReturnTheirRecords_records :
    let s := withRolls [roll 41001 .staged none]
    let o := { base with orders := [order .queued] }
    let p := { base with web.panels := [panel .exited] }
    Hits 0 .readRoll s ∧ Hits 41001 .readRoll s ∧ s.findRoll 41001 = some (roll 41001 .staged none) ∧ Hits 41002 .readRoll s ∧
    s.findRoll 41002 = none ∧ Hits 65536 .readOrder o ∧ Hits 0 .readOrder o ∧ Hits 420 .readOrder o ∧
    o.findOrder 420 = some (order .queued) ∧ Hits 65535 .readOrder o ∧ o.findOrder 65535 = none ∧ Hits 65536 .readPanel p ∧
    Hits 0 .readPanel p ∧ Hits 17 .readPanel p ∧ p.findPanel 17 = some (panel .exited) ∧ Hits 65535 .readPanel p ∧
    p.findPanel 65535 = none ∧ Hits 0 .readWebMap base := by decide +kernel

theorem test_witness_RollsAmendedAndRetired_retire :
    let s := fun r => withRolls [r]
    let hitsAll := fun r => dispatches Env.quiet (ask 41001) .retireRoll (s r) taken && (s r).findRoll 41001 == some r &&
      !(s r).inPress 41001
    [roll 41001 .staged none, roll 41001 .mounted (some .b), roll 41001 .prepared (some .b), roll 41001 .running (some .a),
      roll 41001 .spent none, roll 41001 .spent (some .a), { roll 41001 .spent none with refs := 1 },
      { roll 41001 .spent none with refs := 1, watch := some 0 }].all hitsAll = true ∧
    ({ s (roll 41001 .running (some .a)) with turret.seq := .pressing, turret.incoming := some ⟨41001, .a⟩ } : State).inPress
      41001 = true := by decide +kernel

theorem test_witness_MountRollStartsOrMounts :
    let s := withRolls [roll 41001 .staged none]
    let r := withRolls [roll 41001 .staged none, roll 41002 .running (some .a)]
    let b := { s with turret.spinB := ⟨.loaded, some 41003, false, false⟩ }
    let p := withRolls [roll 41001 .prepared (some .b)]
    Hits 41001 (.mountRoll 1) s ∧ Hits 41001 (.mountRoll 2) r ∧ Hits 41001 (.mountRoll 2) b ∧ Hits 41001 (.mountRoll 2) p ∧
    Hits 41002 (.mountRoll 1) r ∧ s.runningRoll = none ∧ s.line.state = .off ∧ r.runningRoll ≠ none ∧
    (s.spindle .a).state = .empty ∧ (r.spindle .b).state = .empty ∧ (b.spindle .b).state ≠ .empty ∧
    p.findRoll 41001 = some (roll 41001 .prepared (some .b)) ∧ p.runningRoll = none ∧ Hits 41001 (.mountRoll 1) p ∧
    Hits 0 (.mountRoll 0) s ∧ Hits 41001 (.mountRoll 0) s ∧ Hits 41001 (.mountRoll 3) s ∧ Hits 41002 (.mountRoll 2) s ∧
    s.findRoll 41002 = none := by
  decide +kernel

theorem test_witness_SpliceNowSetsTheRequestWish :
    let s := fun st => { withRolls [roll 41001 .running (some .a)] with line.state := st }
    Hits 0 .spliceNow base ∧ Hits 0 .spliceNow (s .halt) ∧ Hits 0 .spliceNow (inState .standby) ∧
    (inState .standby).runningRoll = none ∧ Hits 0 .spliceNow (s .standby) ∧ (s .standby).runningRoll ≠ none ∧
    (s .standby).turret.now = none ∧ ({ s .run with turret.now := some 0 } : State).turret.now ≠ none := by decide +kernel

/-- A line whose splice is wanted, the other spindle READY: the store at the reserve level and the committed end where the guard just
reaches the splice point, and each one unit off. -/
theorem test_witness_SpliceWishesAndTrigger :
    let s := fun (st : LineState) (store committed : Nat) => { withRolls [roll 41001 .running (some .a)] with
      line.state := st, line.store := store, head.committed := committed, turret.seq := .pending, turret.request := true
      turret.spinA := ⟨.feeding, some 41001, false, false⟩, turret.spinB := ⟨.ready, some 41002, true, false⟩ }
    (s .run 40000 47000).line.consts = some consts ∧ (s .run 40000 47000).runningRoll = some (roll 41001 .running (some .a)) ∧
    (s .run 40000 47000).triggerReady = some (.a, .b) ∧ (s .run 39999 46999).triggerReady = none ∧
    (s .run 40000 47001).triggerReady = none ∧ (s .standby 0 7000).triggerReady = some (.a, .b) ∧ (s .off 40000 0).triggerReady = none ∧
    ((s .run 0 0).spindle .a).state = .feeding ∧ base.runningRoll = none ∧ (base.spindle .a).state ≠ .feeding ∧
    (base.spindle .b).state ≠ .feeding := by decide

/-- The sequence judged while PRESSING, with a splice wanted, and with none. -/
theorem test_witness_SpliceWishesAndTrigger_judged :
    let s := { withRolls [roll 41001 .running (some .a)] with turret.request := true }
    ({ base with turret.seq := .pressing } : State).turret.seq = .pressing ∧ s.turret.seq ≠ .pressing ∧
    (s.runningRoll.isSome && (s.turret.point || s.turret.headWish || s.turret.request)) = true ∧
    (base.runningRoll.isSome && (base.turret.point || base.turret.headWish || base.turret.request)) = false := by decide

/-- The base with a RUNNING roll of class 2, slot 7 and an order of it, MARKED or FREE. -/
def ordered (x : Slot) (m : Option Marks) : State :=
  { withRolls [roll 41001 .running (some .a)] with
    lib.slots := base.lib.slots.set 7 x, orders := [{ order .queued with marks := m }] }

/-- A page whose grade rule size 11 breaks, and one too large for the limits (R20, R27). -/
def steepPage : Page := { page7 with groups := [⟨.box, 1, 200, 100, -20⟩] }
def largePage : Page := { page7 with motif := 64 }

theorem test_witness_PlaceOrderDecided :
    let s := withSlot slot7
    let full := { s with orders := List.replicate 32 (order .queued) }
    let m := page7.measure 5 0
    let w := paramWrites 0x1000 [(0x0C, [0]), (0x10, le 4 m.t ++ le 4 m.out)]
    orderFail (ask 65535) (orderArgs true 0) = none ∧ orderFail (ask 1) (orderArgs true 1) = none ∧
    (orderFail (ask 65536) (orderArgs true 0)).isSome = true ∧ Hits 65535 (.placeOrder (orderArgs true 0)) s ∧
    Hits 421 (.placeOrder (orderArgs false 1)) s ∧ s.slot 7 = slot7 ∧ slot7.nextPage = some page7 ∧
    s.findOrder 65535 = none ∧ s.carrier 65535 = none ∧ s.orders.length < 32 ∧ page7.gradeCheck 5 = none ∧ m.ok = true ∧
    (⟨12, 5000, 20000⟩ : Marks).fits m.t 1000 = true ∧ (⟨1, 0, m.t + 999⟩ : Marks).fits m.t 1000 = false ∧
    (steepPage.gradeCheck 11).isSome = true ∧ largePage.gradeCheck 5 = none ∧ (largePage.measure 5 0).ok = false ∧
    s.storeOk w = true ∧ ({ s with bus := ⟨[], [⟨0x102C, 1⟩]⟩ } : State).storeOk w = false ∧
    State.reset.line.consts = none ∧ Hits 421 (.placeOrder (orderArgs true 0)) (withSlot { slot7 with busy := true }) ∧
    Hits 421 (.placeOrder (orderArgs true 0)) base ∧ (base.slot 7).state = .free ∧
    ((withSlot { slot7 with state := .retiring }).slot 7).state = .retiring ∧
    Hits 421 (.placeOrder (orderArgs true 0)) full ∧ full.findOrder 421 = none ∧ full.carrier 421 = none ∧
    full.findOrder 420 = some (order .queued) ∧
    ({ s with web.panels := [panel .inPath] } : State).carrier 420 = some (panel .inPath) := by decide +kernel

/-- A registration of exactly T and the gap fits, and one unit less does not; a pending flip; no candidate. -/
theorem test_witness_CandidatesBindInTurn :
    let s := ordered slot7 none
    let o := order .queued
    s.candidate = some o ∧ base.candidate = none ∧ base.head.bound = none ∧ slot7.page .a = some page7 ∧ s.slot 7 = slot7 ∧
    s.runningK = 200 ∧ page7.gradeCheck 5 = none ∧ (page7.measure 5 200).ok = true ∧
    (⟨1, 0, 13408⟩ : Marks).fits (page7.measure 5 200).t 1000 = true ∧
    (⟨1, 0, 13407⟩ : Marks).fits (page7.measure 5 200).t 1000 = false ∧
    (ordered slot7 (some ⟨1, 0, 13408⟩)).candidate = some { o with marks := some ⟨1, 0, 13408⟩ } ∧
    ({ slot7 with pageB := some largePage, flip := true } : Slot).page .b = some largePage ∧
    (largePage.measure 5 200).ok = false ∧ largePage.gradeCheck 5 = none ∧ (steepPage.gradeCheck 11).isSome = true := by
  decide +kernel

theorem test_witness_CancelOrderByState :
    let s := fun st => { base with orders := [order st] }
    let f := { s .forming with head.panel := some 17, web.panels := [panel .forming] }
    Hits 420 (.cancelOrder true) (s .queued) ∧ Hits 420 (.cancelOrder false) f ∧ Hits 420 (.cancelOrder true) f ∧
    f.panelForming 420 = true ∧ (s .forming).panelForming 420 = false ∧ Hits 420 (.cancelOrder true) (s .forming) ∧
    Hits 420 (.cancelOrder true) (s .awaitingExit) ∧ f.findOrder 420 = some (order .forming) := by decide +kernel

/-- A RETIRING slot whose last order leaves, and one that keeps an order. -/
theorem test_witness_CancelOrderByState_slot :
    ((withSlot { slot7 with state := .retiring, uses := 1 }).slot 7).state = .retiring ∧
    ((withSlot { slot7 with state := .retiring, uses := 1 }).slot 7).uses ≤ 1 ∧
    ¬ ((withSlot { slot7 with state := .retiring, uses := 2 }).slot 7).uses ≤ 1 ∧ (order .queued).pattern = 7 := by decide

theorem test_witness_AlignBladeTrials :
    let s := fun n => { inState .thread with web.segs := List.replicate n (segment .flat none) }
    let g := { s 1 with head.passage := .guard }
    Hits 0 .alignBlade (s 127) ∧ Hits 0 .alignBlade (s 128) ∧ (s 127).bladeRoll = some 41001 ∧ (s 127).head.align = none ∧
    (s 127).web.segs.length = 127 ∧ (s 127).head.passage = .none ∧ Hits 0 .alignBlade g ∧ g.head.passage ≠ .none ∧
    Hits 0 .alignBlade { inState .run with web.segs := [segment .flat none] } ∧ Hits 0 .alignBlade (inState .thread) ∧
    (inState .thread).bladeRoll = none ∧ g.line.state = .thread ∧
    ({ s 1 with head.align := some ⟨some 1, 255, 255, none⟩ } : State).head.align = some ⟨some 1, 255, 255, none⟩ := by
  decide +kernel

/-- The TRIAL segment opened over one of length zero whose roll waits for its retirement, its count too low (as no run leaves it): a return
slot that takes the post leaves the entry of the trials, and a ring fault drops it (R85, R172, R175). -/
theorem test_witness_AlignBladeTrials_dropped :
    let e := fun (faults : List Span) => { Env.quiet with readFaults := faults }
    let s := { withRolls [{ roll 41001 .spent none with watch := some 2 }] with
      line.state := .thread, web.segs := [segment .flat none]
      port.table := [taken, ⟨2, 0x2000, false, .running, some ({ ask 0 with block := 0x2000 }, .retireRoll)⟩] }
    let t := fun (faults : List Span) => decideAlign 1 (dispatched (e faults) (ask 0) .alignBlade s taken)
    ([[], [⟨0x9004, 1⟩]].all (fun faults => dispatches (e faults) (ask 0) .alignBlade s taken) = true ∧ s.bladeRoll = some 41001) ∧
    ((t []).port.state = .ready ∧ (t []).head.align = some ⟨some 1, 0, 0, none⟩) ∧
    ((t [⟨0x9004, 1⟩]).port.state = .initFailed ∧ (t [⟨0x9004, 1⟩]).head.align = some ⟨none, 0, 0, none⟩) := by decide +kernel

/-- A data area of 71 bytes is too short and one of 72 long enough. -/
theorem test_witness_AwaitPanelExitDeliversOrWaits :
    let s := { base with web.panels := [panel .exited], web.exits := [17] }
    let a := dataBytes (ask 0).data (s.panelRecord (panel .exited)) ++ paramWrites 0x1000 [(0, le 2 0)]
    dispatches Env.quiet { ask 0 with data := .contiguous 0x2000 71 } .awaitPanelExit base taken = true ∧
    dataTotal (.contiguous 0x2000 71) = 71 ∧ Hits 0 .awaitPanelExit base ∧ dataTotal (ask 0).data = 72 ∧ base.web.exits = [] ∧
    Hits 0 .awaitPanelExit s ∧ s.findPanel 17 = some (panel .exited) ∧ s.storeOk a = true ∧
    ({ s with bus := ⟨[], [⟨0x2047, 1⟩]⟩ } : State).storeOk a = false := by decide +kernel

/-- A panel offered to a waiting Await, with a delivery that writes and one whose last byte faults. -/
theorem test_witness_AwaitPanelExitDeliversOrWaits_offered :
    let s := { held .running .awaitPanelExit with web.panels := [panel .exited], web.exits := [17], web.awaits := [1] }
    let v := { s with web.awaits := s.web.awaits.filter (fun n => n != 1) }
    let a := dataBytes (ask 0).data (v.panelRecord (panel .exited)) ++ paramWrites 0x1000 [(0, le 2 0)]
    s.entry 1 = some ⟨1, 0x1000, false, .running, some (ask 0, .awaitPanelExit)⟩ ∧ s.findPanel 17 = some (panel .exited) ∧
    v.storeOk a = true ∧ ({ v with bus := ⟨[], [⟨0x2047, 1⟩]⟩ } : State).storeOk a = false := by decide +kernel

theorem test_witness_ReleasePanelFollowsR102 :
    let s := fun st => { base with web.panels := [panel st] }
    Hits 0 .releasePanel base ∧ Hits 65536 .releasePanel base ∧ Hits 65535 .releasePanel base ∧ base.findPanel 65535 = none ∧
    Hits 17 .releasePanel (s .forming) ∧ Hits 17 .releasePanel (s .inPath) ∧ Hits 17 .releasePanel (s .exited) ∧
    (s .exited).findPanel 17 = some (panel .exited) := by decide +kernel

theorem test_witness_PurgeWebEmptiesTheMap :
    Hits 0 .purgeWeb (inState .run) ∧ Hits 0 .purgeWeb base ∧ Hits 0 .purgeWeb (inState .standby) ∧ base.head.flight = none ∧
    Hits 0 .purgeWeb { base with head.flight := some (flying false []) } ∧
    Hits 0 .purgeWeb { base with web.segs := [segment .panel (some 500), segment .flat none] } := by decide +kernel

/-- A newest FLAT of the same roll and one of another; 127 and 128 segments; an open segment with web, one with none, and an open PANEL;
a count that falls to 0 and one that does not. -/
theorem test_witness_SegmentsOpenMergeAndClose :
    let flat := { base with web.segs := [segment .flat none] }
    let full := { base with web.segs := List.replicate 128 (segment .splice (some 500)) }
    let spent := fun n => { roll 41001 .spent none with refs := n, watch := some 1 }
    flat.web.segs.getLast? = some (segment .flat none) ∧ (segment .flat none).kind = .flat ∧ (segment .flat none).roll = 41001 ∧
    full.web.segs.length = 128 ∧ full.web.segs.getLast? = some (segment .splice (some 500)) ∧ base.web.segs = [] ∧
    (segment .splice (some 500)).fEnd = some 500 ∧ (segment .flat none).fEnd = none ∧
    (segment .flat none).oStart = base.head.o ∧ (segment .flat none).oStart ≠ ({ base with head.o := 1 } : State).head.o ∧
    (segment .panel none).kind = .panel ∧ (withRolls [spent 1]).findRoll 41001 = some (spent 1) ∧
    (withRolls [spent 2]).findRoll 41001 = some (spent 2) ∧ (withRolls [roll 41001 .running (some .a)]).findRoll 41001 =
      some (roll 41001 .running (some .a)) := by decide +kernel

/-- A segment that ends at the bound and one that ends one unit above it; each fate of an order whose panel leaves. -/
theorem test_witness_PanelsExitAndAreCounted :
    let s := { base with web.segs := [segment .panel (some 500), segment .flat (some 501), segment .flat none] }
    let o := fun m live remakes st => { order st with m := m, live := live, remakes := remakes }
    let w := fun z => { base with orders := [z] }
    s.web.segs = [segment .panel (some 500)] ++ [segment .flat (some 501), segment .flat none] ∧
    (segment .panel (some 500)).oEnd = some 500 ∧ (segment .flat (some 501)).oEnd = some 501 ∧
    ({ base with web.segs := [{ segment .panel none with panel := some 17 }] } : State).segNumbered 41 =
      some { segment .panel none with panel := some 17 } ∧
    s.segNumbered 42 = none ∧ (segment .flat none).kind ≠ .panel ∧ base.web.awaits = [] ∧
    (withRolls [roll 41001 .running (some .a)]).findRoll (panel .inPath).roll = some (roll 41001 .running (some .a)) ∧
    (withRolls []).fibre 2 = some ⟨1400, 1900, 24000, 200⟩ ∧ base.findOrder 420 = none ∧
    (w (o 0 1 1 .awaitingExit)).findOrder 420 = some (o 0 1 1 .awaitingExit) ∧
    (w (o 0 1 0 .awaitingExit)).findOrder 420 = some (o 0 1 0 .awaitingExit) ∧
    (w (o 1 1 0 .forming)).findOrder 420 = some (o 1 1 0 .forming) := by decide

/-- Every value at its least, then one below it; flags 03FFh name all ten. -/
theorem test_witness_SetZonesEditsEveryZone :
    Hits 0 (.setZones ⟨0x3FF, 0, 800, 800, 800, 800, 5, 0, 1, 1, 50, 1⟩) base ∧
    zonesFail 0x3FF 0 (zoneValues ⟨0x3FF, 0, 800, 800, 800, 800, 5, 0, 1, 1, 50, 1⟩) = none ∧
    zonesFail 0x3FF 0 (zoneValues ⟨0x3FF, 0, 2200, 2200, 2200, 2200, 200, 800, 200, 200, 500, 500⟩) = none ∧
    (zonesFail 1 0 (zoneValues ⟨1, 0, 799, 0, 0, 0, 0, 0, 0, 0, 0, 0⟩)).isSome = true ∧
    zonesFail 0 0 (zoneValues ⟨0, 0, 799, 0, 0, 0, 0, 0, 0, 0, 0, 0⟩) = none ∧
    Hits 0 (.setZones ⟨1, 0, 799, 0, 0, 0, 0, 0, 0, 0, 0, 0⟩) base := by decide +kernel

/-- Output that ends one unit short of a cell boundary, and output that reaches it; lookups that find two segments, the second alone
and none; a cell never filled, an EMPTY one, and filled ones. -/
theorem test_witness_CrossingsFillTheCells :
    let g := fun n lo => (⟨n, .flat, 41001, none, lo, none, lo, some (lo + 300)⟩ : Segment)
    base.head.o + 2999 < base.k.dEntry + base.chest.entry + 500 * 0 ∧
    base.head.o + 3000 < base.k.dEntry + base.chest.entry + 500 * 1 ∧ base.k.dEntry + base.chest.entry + 500 * 0 ≤ 0 + 3000 ∧
    base.chest.cells = List.replicate 63 ⟨none, none⟩ ++ [⟨none, none⟩] ∧
    ({ base with web.segs := [g 1 0, g 2 300] } : State).segAt 0 = some (g 1 0) ∧
    ({ base with web.segs := [g 1 0, g 2 300] } : State).segAt (0 + 499) = some (g 2 300) ∧
    ({ base with web.segs := [g 2 300] } : State).segAt 0 = none ∧ base.segAt 0 = none ∧ base.segAt (0 + 499) = none ∧
    (⟨some 0, none⟩ : Cell) ≠ ⟨none, none⟩ ∧ base.classesPresent = [] ∧
    ({ base with chest.cells := [⟨some 0, some ⟨1, 1, 2, 0, 0⟩⟩] } : State).classesPresent = [2] := by decide

/-- A ceiling below the LOW minimum 5, at it, and at 240; the classes present; an unset part. -/
theorem test_witness_CeilingAndHeat :
    let s := fun (r : Nat) => { withRolls [roll 41001 .running (some .a)] with
      chest.zones := base.chest.zones.map (fun (z : Zone) => { z with reading := r }) }
    base.classesPresent = [] ∧ (s 1400).classesPresent = [2] ∧ (s 1415).ceilingNow = (4, some 2) ∧
    (s 1416).ceilingNow = (5, some 2) ∧ (s 2400).ceilingNow = (240, some 2) ∧ (s 1416).line.range.min = 5 ∧
    base.line.consts = some consts ∧ State.reset.line.consts = none ∧
    base.chest.zones = [Zone.initial, Zone.initial, Zone.initial, Zone.initial] := by decide

theorem test_witness_ReadsReturnTheirRecords_zonesAndLine :
    Hits 0 (.readZones true) base ∧ Hits 0 (.readLineStatus true) base ∧ base.line.consts = some consts ∧
    Hits 0 (.readLineStatus false) { State.reset with port := base.port } := by decide +kernel

theorem test_witness_EnergiseThreadAndStart :
    let s := { withRolls [roll 41001 .running (some .a)] with line.state := .standby, head.aligned := true }
    Hits 0 .energise base ∧ base.line.estop = false ∧ base.line.drive = false ∧ Hits 0 .energise { base with line.estop := true } ∧
    Hits 0 .energise (inState .standby) ∧ Hits 0 .deEnergise (inState .standby) ∧ Hits 0 .deEnergise base ∧
    Hits 0 .thread (inState .standby) ∧ Hits 0 .thread base ∧ Hits 0 .start s ∧ s.line.startWatch = none ∧
    s.runningRoll ≠ none ∧ Hits 0 .start { s with head.aligned := false } ∧ Hits 0 .start { inState .standby with
      head.aligned := true } ∧ Hits 0 .start base ∧
    ({ s with line.state := .starting, line.zonesReady := true } : State).mayRun = true := by decide +kernel

/-- A removed PANEL segment whose panel has a record, and one of another kind. -/
theorem test_witness_PanelsExitAndAreCounted_removed :
    let g := { segment .panel (some 500) with panel := some 17 }
    g.kind = .panel ∧ g.panel = some 17 ∧ ({ base with web.panels := [panel .inPath] } : State).findPanel 17 = some (panel .inPath) ∧
    (segment .flat (some 500)).kind ≠ .panel := by decide

theorem test_witness_StopByLineState :
    [LineState.off, .standby, .thread, .starting, .run, .hold, .stopping, .halt].all (fun st =>
      dispatches Env.quiet (ask 0) (.stop true) (inState st) taken) = true ∧
    (inState .thread).head.align = none ∧
    ({ inState .thread with head.align := some ⟨some 0, 0, 0, none⟩ } : State).head.align = some ⟨some 0, 0, 0, none⟩ := by
  decide +kernel

/-- A held Start whose end the return ring takes, waits to take or faults on, as a Stop is decided. -/
def stopping (b : Byte) (faults : List Span) : State :=
  decideStop 1 false (poke 0x9004 [b] { inState .hold with
    line.startWatch := some 2, bus := ⟨faults, []⟩
    port.table := [⟨1, 0x1000, false, .running, some (ask 0, .stop false)⟩,
      ⟨2, 0x2000, false, .running, some ({ ask 0 with block := 0x2000 }, .start)⟩] })

/-- R134, R172, R175: the Stop is a watch while its entry is held; a ring fault met at the end of the Start drops it, and the line stops. -/
theorem test_stop_dropped :
    (stopping 0 []).line.stopWatches = [1] ∧ (stopping 1 []).line.stopWatches = [1] ∧ (stopping 1 []).port.posting.map PostItem.no = [2] ∧
    (stopping 0 [⟨0x9004, 1⟩]).line.stopWatches = [] ∧ (stopping 0 [⟨0x9004, 1⟩]).holdsEntry 1 = false ∧
    (stopping 0 [⟨0x9004, 1⟩]).line.state = .stopping ∧ (stopping 0 [⟨0x9004, 1⟩]).line.startWatch = none := by decide +kernel

theorem test_witness_HoldAndResume :
    let s := fun st (h : Holds) => { inState st with line.holds := h }
    [LineState.off, .standby, .thread, .starting, .run, .hold, .stopping, .halt].all (fun st =>
      dispatches Env.quiet (ask 0) .hold (inState st) taken && dispatches Env.quiet (ask 0) .resume (inState st) taken) = true ∧
    (s .hold { Holds.empty with operator := true }).line.holds.operator = true ∧
    Hits 0 .resume (s .hold { Holds.empty with operator := true }) ∧
    Hits 0 .resume (s .hold { Holds.empty with operator := true, heat := true }) := by decide +kernel

/-- MAP_FULL raised for two places with 126 segments, and with 127; a binding candidate and none. -/
theorem test_witness_HoldAndResume_reports :
    let s := fun n => { base with
      line.holds := { Holds.empty with mapFull := true }, head.mapNeed := 2, web.segs := List.replicate n (segment .flat none) }
    ((s 126).line.holds.mapFull = true ∧ (s 126).head.mapNeed ≤ 128 - (s 126).web.segs.length) ∧
    ¬ (s 127).head.mapNeed ≤ 128 - (s 127).web.segs.length ∧ (ordered slot7 none).candidate ≠ none ∧ base.candidate = none := by
  decide +kernel

/-- A halt outside and in PRESSING; the head with a panel, with none, and with trials that run alone. -/
theorem test_witness_HaltsRaisedAndCleared_whole :
    let p := { inState .halt with head.panel := some 17, web.panels := [panel .forming] }
    let a := { inState .halt with head.align := some ⟨some 1, 0, 0, none⟩ }
    (inState .run).line.state ≠ .off ∧ (inState .run).line.state ≠ .halt ∧ (inState .run).turret.seq ≠ .pressing ∧
    ({ inState .run with turret.seq := .pressing } : State).turret.seq = .pressing ∧ p.line.state = .halt ∧
    p.head.panel = some 17 ∧ a.line.state = .halt ∧ a.head.panel = none ∧ a.head.flight = none ∧
    a.head.align = some ⟨some 1, 0, 0, none⟩ := by decide

theorem test_witness_HaltsRaisedAndCleared_raised :
    (Hits 0 .clearHalt base ∧ Hits 0 .clearHalt (inState .halt) ∧ (inState .halt).line.estop = false ∧
      Hits 0 .clearHalt { inState .halt with line.drive := true }) ∧
    Inv (resting .off none) ∧ Inv (resting .halt (some .estop)) ∧ Inv (resting .standby none) ∧
    (resting .standby none).turret.seq ≠ .pressing :=
  ⟨by decide +kernel, test_resting_inv _ _ (by decide), test_resting_inv _ _ (by decide), test_resting_inv _ _ (by decide),
    by decide⟩

theorem test_witness_SpeedAndRange :
    Hits 0 (.setSpeed 4) base ∧ Hits 0 (.setSpeed 65535) base ∧ Hits 0 (.setRange 0) base ∧ Hits 0 (.setRange 1) base ∧
    Hits 0 (.setRange 2) (inState .standby) ∧ Hits 0 (.setRange 1) (inState .run) ∧ base.line.range = .low := by decide +kernel

/-- Set Line Constants with a data area of 36 bytes at 2000h. -/
def asksConsts (s : State) : Bool := dispatches Env.quiet { ask 0 with data := .contiguous 0x2000 36 } .setLineConstants s taken

theorem test_witness_SetLineConstantsAppliesWhole :
    let s := poke 0x2000 (constsBytes consts) base
    let b := { base with head.arrival := some ⟨9000, 41002⟩ }
    asksConsts s = true ∧ s.line.state = .off ∧ s.head.arrival = none ∧ dataTotal (.contiguous 0x2000 36) = 36 ∧
    Hits 0 .setLineConstants base ∧ dataTotal (ask 0).data ≠ 36 ∧ asksConsts (inState .run) = true ∧ asksConsts b = true ∧
    asksConsts base = true ∧ s.load (dataAddrs (.contiguous 0x2000 36) 36) = some (constsBytes consts) ∧
    constsFirstFail (parseConsts (constsBytes consts)) s.line.store = none ∧
    base.load (dataAddrs (.contiguous 0x2000 36) 36) = some (zeros 36) ∧
    (constsFirstFail (parseConsts (zeros 36)) base.line.store).isSome = true ∧
    ({ base with bus := ⟨[⟨0x2023, 1⟩], []⟩ } : State).load (dataAddrs (.contiguous 0x2000 36) 36) = none := by decide +kernel

/-- The constants of the worked sequences, and a set with every constant at its least. -/
theorem test_witness_SetLineConstantsAppliesWhole_checked :
    constsFirstFail consts 0 = none ∧
    constsFirstFail ⟨2000, 500, 1000, 4, 4, 4, 52, 20000, 5000, 50000, 300, 500, 0, 0, 0, 0, false, 1, 2⟩ 20000 = none ∧
    (constsFirstFail ⟨2000, 500, 1000, 4, 4, 4, 52, 20000, 5000, 50000, 300, 500, 0, 0, 0, 0, false, 1, 2⟩ 20001).isSome =
      true := by decide

/-- A draw that one more unit of travel ends, with and without strokes. -/
theorem test_witness_HeadReportsTaken_reports :
    let st : Stroke := ⟨60, true, 250⟩
    let s := { base with head.flight := some { flying true [st] with travel := 499 }, head.panel := some 17 }
    s.head.flight = some { flying true [st] with travel := 499 } ∧ base.head.flight = none ∧
    ¬ ((flying true [st]).unit.draw ≤ 499 + 0) ∧ (flying true [st]).unit.draw ≤ 499 + 1 ∧
    (flying true [st]).unit.strokes ≠ [] ∧ (flying true [st]).results = none ∧ (flying false []).unit.strokes = [] ∧
    (flying false []).unit.trial = none ∧ base.head.o + 500 < consts.dEntry + base.chest.entry ∧ s.head.panel = some 17 ∧
    (absentRun 1 [.absent]).2 = true ∧ (absentRun 0 [.absent]).2 = false ∧ consts.stopOnTwo = true ∧
    ({ flying true [st] with drawEnd := true }).drawEnd = true ∧ base.head.late = ⟨0, 0⟩ ∧
    ({ base with head.late := ⟨500, 1⟩ } : State).head.late.travel ≠ 0 ∧
    ({ base with head.late := ⟨500, 1⟩ } : State).head.late.pleats ≠ 0 := by decide

/-- A store that an advance fills to C exactly, and one unit over; a roll that the advance exhausts. -/
theorem test_witness_UnwindAdvanceFillsTheStore :
    let s := { withRolls [{ roll 41001 .running (some .a) with u := 1199999 }] with line.store := 99999 }
    s.line.consts = some consts ∧ ¬ (consts.cap < s.line.store + 1) ∧ consts.cap < s.line.store + 2 ∧
    (∃ r, s.runningRoll = some r ∧ 0 < r.remaining ∧ r.remaining ≤ 1) ∧ base.runningRoll = none ∧
    s.turret.seq ≠ .pressing ∧ consts.cap / 4 = 25000 ∧ base.line.stall = none := by
  refine ⟨rfl, by decide, by decide, ⟨_, rfl, by decide, by decide⟩, ?_⟩
  decide

/-- The latch at C - C/10, at C/2 and one unit below each. -/
theorem test_witness_UnwindAdvanceFillsTheStore_latch :
    let s := fun a => { base with line.store := a }
    base.k.cap - base.k.cap / 10 = 90000 ∧ base.k.cap - base.k.cap / 10 ≤ (s 90000).line.store ∧
    (s 89999).line.store < base.k.cap - base.k.cap / 10 ∧ base.k.cap / 2 ≤ (s 50000).line.store ∧
    (s 49999).line.store < base.k.cap / 2 := by decide

theorem test_witness_HeadReportsTaken_marks :
    ({ base with head.marks := List.replicate 8 0 } : State).head.marks.length = 8 ∧
    ({ base with head.marks := List.replicate 7 0 } : State).head.marks.length = 7 ∧ base.line.consts = some consts := by decide

theorem test_witness_SpindleInputsAtTheirChange :
    let s := { base with turret.spinA := ⟨.loaded, some 41001, false, true⟩, turret.spinB := ⟨.core, some 41001, true, false⟩ }
    (s.spindle .a).readyIn = false ∧ (s.spindle .a).state = .loaded ∧ (s.spindle .b).coreIn = false ∧
    (s.spindle .b).state = .core ∧ (s.spindle .b).readyIn = true ∧ (s.spindle .a).coreIn = true := by decide

/-- A press, one of its deadline values at the length and one a millisecond short. -/
theorem test_witness_EndsOfAPress :
    let s := { base with
      turret.seq := .pressing, turret.outgoing := some ⟨41001, .a⟩, turret.incoming := some ⟨41002, .b⟩
      turret.press := some ⟨0, 20000⟩, line.clock := 20000, head.panel := some 17, head.committed := 7001 }
    s.turret.splice = false ∧ s.turret.outgoing = some ⟨41001, .a⟩ ∧ s.turret.press = some ⟨0, 20000⟩ ∧
    20000 ≤ (s.line.clock - 0).toNat ∧ ((19999 : Clock) - 0).toNat < 20000 ∧ base.turret.press = none ∧ base.head.panel = none ∧
    s.head.f + consts.p + s.line.store < s.head.committed + consts.guardLen ∧ (41001 : Nat) ≠ 41002 ∧ SpindleId.a ≠ .b := by
  decide

/-- A press that closes with an incoming roll, and with none. -/
theorem test_witness_EndsOfAPress_closed :
    ({ base with turret.incoming := some ⟨41002, .b⟩ } : State).turret.incoming = some ⟨41002, .b⟩ ∧
    base.turret.incoming = none ∧ SpindleId.a ≠ .b := by decide

/-- The readings 2,500 and 2,501, and the first and the last cell of a zone. -/
theorem test_witness_ZoneSamplesWorked_classified :
    (2500 : BitVec 12).toNat ≤ 2500 ∧ 2500 < (2501 : BitVec 12).toNat ∧ ({ Zone.initial with faultRun := 1 }).faultRun ≤ 1 ∧
    2 ≤ ({ Zone.initial with faultRun := 2 }).faultRun ∧ base.chest.cells[16]? = some ⟨none, none⟩ ∧
    base.chest.cells[63]? = some ⟨none, none⟩ ∧ base.k.zone1 ≤ 16 ∧ 31 < base.k.zone1 + base.k.zone2 ∧
    (withRolls []).fibre 2 = some ⟨1400, 1900, 24000, 200⟩ := by decide

theorem test_witness_ControlLawFollowsR112 :
    Zone.initial.duty ≤ 1000 ∧ ({ Zone.initial with target := some 800 }).target = some 800 ∧ Zone.initial.enabled = true ∧
    Zone.initial.faulted = false ∧ Zone.initial.purging = false := by decide

theorem test_witness_ZoneSamplesWorked_worked :
    base.line.state = .off ∧ (inState .run).line.state ≠ .off ∧ ((base.zone .z1).classify (.reading 2501)).2 = true ∧
    ((base.zone .z1).classify (.reading 2500)).2 = false ∧ ((base.zone .z1).classify (.reading 2500)).1.faulted = false ∧
    (({ base.zone .z1 with faultRun := 2 }).classify .fault).1.faulted = true := by decide

theorem test_witness_HaltsRaisedAndCleared_inputs :
    base.line.estop = false ∧ base.line.drive = false ∧ ({ base with line.estop := true } : State).line.estop = true := by decide

theorem test_witness_DeadlinesOfTheClock_line :
    let s := fun d => { inState .starting with line.deadline := some d, line.stall := some 0xFFFFFFFF, line.clock := 9999 }
    (s 600000).line.stall = some 0xFFFFFFFF ∧ 10000 ≤ ((s 0).line.clock - 0xFFFFFFFF).toNat ∧
    ((9998 : Clock) - 0xFFFFFFFF).toNat < 10000 ∧ base.line.stall = none ∧ (s 600000).line.deadline = some 600000 ∧
    60000 * consts.startTimeout ≤ 600000 ∧ 599999 < 60000 * consts.startTimeout ∧ base.line.deadline = none := by decide

theorem test_witness_DeadlinesOfTheClock_purges :
    let s := fun sp c => { base with
      chest.zones := base.chest.zones.set 0 { Zone.initial with setPoint := sp, timer := some 0, purging := true }
      line.clock := c }
    ((s 1500 30000).zone .z1).timer = some 0 ∧ 30000 ≤ ((30000 : Clock) - 0).toNat ∧ ((29999 : Clock) - 0).toNat < 30000 ∧
    ((s 1499 60000).zone .z1).setPoint = 1499 ∧ ((s 1500 2000).zone .z1).purging = true ∧ (base.zone .z1).timer = none ∧
    ((1999 : Clock) - 0).toNat < 2000 := by decide

/-- A wanted draw that the store just covers, and one that it does not. -/
theorem test_witness_EndOfEventTakesTheDraw :
    let s := fun a => { base with head.wanted := some (flatUnit 500), line.store := a }
    (s 500).head.flight = none ∧ (s 500).head.again = false ∧ (s 500).head.wanted = some (flatUnit 500) ∧
    (flatUnit 500).draw ≤ (s 500).line.store ∧ (s 499).line.store < (flatUnit 500).draw ∧ base.head.wanted = none ∧
    ({ base with head.flight := some (flying false []) } : State).head.flight ≠ none := by decide

/-- A chunk in a run of the head. -/
def running (st : LineState) (r : Option Run) : State := { inState st with head.run := r, head.state := .flat }

/-- A THREAD line wants a chunk of 500: the store just covers it, or is one unit short, starved on the same draw or not. -/
theorem test_witness_BoundaryTakesTheFirstAction :
    let s := fun store starved want => { inState .thread with
      head.again := true, head.state := .flat, line.store := store, line.starved := starved, head.wanted := want
      head.run := some ⟨.thread, none, true, none⟩, web.segs := [segment .flat none] }
    let t := boundary { s 499 true (some (flatUnit 500)) with head.wanted := none }
    (s 500 false none).head.flight = none ∧ t.head.wanted = some (flatUnit 500) ∧ t.line.store = 499 ∧ t.line.starved = true ∧
    (boundary (s 500 false none)).line.store = 500 ∧ (boundary (s 499 false none)).line.starved = false ∧
    (wantFold { s 500 false none with head.state := .forming }).head.wanted = none ∧
    ({ s 500 false none with head.state := .retracted } : State).head.state = .retracted := by decide +kernel

/-- Every kind of boundary: MAP_FULL; a run that goes on or has ended; an owed gap; each moving state. -/
theorem test_witness_BoundaryTakesTheFirstAction_kinds :
    let s := running .run (some ⟨.gap, some 500, true, none⟩)
    let e := running .run (some ⟨.gap, some 0, true, none⟩)
    ({ s with line.holds := { Holds.empty with mapFull := true } } : State).line.holds.mapFull = true ∧
    s.head.arrival = none ∧ s.head.gapOwed = false ∧ s.head.run = some ⟨.gap, some 500, true, none⟩ ∧
    e.head.run = some ⟨.gap, some 0, true, none⟩ ∧
    ({ running .run none with head.gapOwed := true } : State).head.gapOwed = true ∧ (running .run none).head.passage = .none ∧
    (running .thread none).head.align = none ∧ (running .stopping none).line.state = .stopping ∧
    (askOrder 1 (ordered slot7 none)).head.bound = some ⟨420, 7, 5, .a, none⟩ ∧
    (askOrder 0 (running .run none)).head.bound = none := by decide +kernel

/-- The units of a page: waist, hem and a pleat of each kind, with the cursor on a pleat that the group goes on with, on its last pleat,
and on the last pleat of the last group, with passes left and none. -/
theorem test_witness_BoundaryTakesTheFirstAction_units :
    let s := fun c => { ordered slot7 none with
      head.bound := some ⟨420, 7, 5, .a, none⟩, head.meter := some (page7.meter .a 5 200), head.cursor := c }
    let kinds : Page := { page7 with groups := [⟨.flat, 1, 250, 0, 0⟩, ⟨.knifeLeft, 1, 250, 120, 0⟩, ⟨.invertedBox, 1, 400, 100, 0⟩] }
    (s ⟨.waist, 0, 0, 0⟩).boundPage = some page7 ∧ (s ⟨.hem, 0, 0, 0⟩).head.meter = some (page7.meter .a 5 200) ∧
    page7.groups[1 - 1]? = some ⟨.knifeRight, 6, 250, 120, 10⟩ ∧ page7.groups[2 - 1]? = some ⟨.box, 1, 400, 100, 20⟩ ∧
    (page7.meter .a 5 200).faces = [260, 420] ∧ (kinds.groups[0]?.map Group.kind) = some .flat ∧
    (kinds.groups[1]?.map Group.kind) = some .knifeLeft ∧ (kinds.groups[2]?.map Group.kind) = some .invertedBox ∧
    (kinds.meter .a 5 200).faces.length = 3 ∧ page7.motif = 3 ∧ page7.hem ≠ 0 := by decide +kernel

/-- The guard point reached; the ends of the GUARD and the SPLICE run; an arrival ahead; a chunk that needs a segment and finds a place,
or none. -/
theorem test_witness_PassageOfASplice :
    let arrives := { running .run (some ⟨.wait, none, true, none⟩) with head.arrival := some ⟨9000, 41002⟩, head.f := 8000 }
    let guarded := { running .run (some ⟨.guard, some 0, true, none⟩) with head.arrival := some ⟨9000, 41002⟩, head.passage := .guard }
    let spliced := { running .run (some ⟨.splice, some 0, true, some 41002⟩) with head.passage := .splice }
    let place := fun n => { inState .run with web.segs := List.replicate n (segment .panel (some 0)) }
    (arrives.line.holds.mapFull = false ∧ arrives.line.consts = some consts ∧ arrives.head.passage = .none ∧
      arrives.head.arrival = some ⟨9000, 41002⟩ ∧ arrives.head.f + consts.guardLen = 9000 ∧
      arrives.head.run = some ⟨.wait, none, true, none⟩) ∧
    guarded.head.run = some ⟨.guard, some 0, true, none⟩ ∧ guarded.head.arrival = some ⟨9000, 41002⟩ ∧
    spliced.head.run = some ⟨.splice, some 0, true, some 41002⟩ ∧ spliced.head.suspended = none ∧
    (place 127).bladeRoll = some 41001 ∧ openSeg .flat 41001 none (place 128) = none ∧
    (openSeg .flat 41001 none (place 127)).isSome = true := by decide +kernel

/-- A machine that tests the start of a panel: the unwound length, the store, an arrival, the wish and the marks. -/
def starting (u : Nat) (a : Option Arrival) (wish : Bool) (m : Option Marks) (marks : List Nat) : State :=
  { ordered slot7 m with
    line.state := .run, turret.rolls := [{ roll 41001 .running (some .a) with u := u }], turret.headWish := wish, head.wish := wish
    head.bound := some ⟨420, 7, 5, .a, m⟩, head.arrival := a, head.marks := marks }

/-- The horizon reached exactly and missed by one unit, with and without an arrival; 63 and 64 panels, 126 and 127 segments; a start on a
mark, a self-framed start and a seek. -/
theorem test_witness_PanelStartsWhenItsTestsPass :
    let m : Marks := ⟨1, 0, 13408⟩
    let s := starting 0 none false none []
    s.line.consts = some consts ∧ s.bladeRoll = some 41001 ∧ s.boundPage = some page7 ∧
    (page7.measure 5 (s.allowance 2)).t = 12408 ∧ (starting 1094592 none false none []).horizon 12408 = true ∧
    (starting 1094593 none false none []).horizon 12408 = false ∧
    (starting 0 (some ⟨13408, 41002⟩) false none []).horizon 12408 = true ∧
    (starting 0 (some ⟨13407, 41002⟩) false none []).horizon 12408 = false ∧
    ({ s with web.panels := List.replicate 64 (panel .exited) } : State).web.panels.length = 64 ∧
    ({ s with web.segs := List.replicate 127 (segment .flat none) } : State).web.segs.length = 127 ∧
    (changeWishes (fun y => { y with head.wish := true, turret.headWish := true })
      (starting 1094593 none false none [])).line.state ≠ .run ∧
    (starting 1094593 none true none []).line.state = .run ∧
    (starting 0 none false (some m) [0]).framing m = .start false ∧
    ({ starting 0 none false (some m) [] with head.expected := some 0, head.f := 20112 } : State).framing m = .start true ∧
    (starting 0 none false (some m) []).framing m = .seek (some 20112) ∧ s.port.state = .ready ∧
    (startPanel ⟨420, 7, 5, .a, none⟩ page7 41001 false s).port.state = .ready := by decide +kernel

/-- A usable mark at F, one ahead before and after the deadline, one behind, and one that counts too early; the deadline just reached. -/
theorem test_witness_PanelStartsWhenItsTestsPass_framing :
    let m : Marks := ⟨2, 300, 7000⟩
    let s := fun (f : Nat) (marks : List Nat) => { base with head.f := f, head.expected := some 200000, head.marks := marks }
    let c := fun (n : Nat) => { s 203700 [203400, 210400] with head.counting := true, head.lastMark := some 203400, head.counted := n }
    (s 203700 [203400]).framing m = .start false ∧ (s 200400 [203400]).framing m = .seek (some 203700) ∧
    (s 221000 [221100]).framing m = .seek (some 221400) ∧ (s 220999 [230000]).framing m = .seek (some 221000) ∧
    (s 221000 []).framing m = .start true ∧ (s 220999 [200000]).framing m = .seek (some 221000) ∧
    (c 1).framing m = .seek (some 238700) ∧ (c 2).framing m = .seek (some 210700) := by decide

/-- An open PANEL segment; an order that goes on, one that is released and one that is cancelled; a cut with no unit in flight, and with
one that owes its reports. -/
theorem test_witness_PanelsCompleteAndAreCut :
    let o := fun m c => { order .forming with m := m, cancel := c }
    let w := fun z => { base with orders := [z] }
    let cut := { base with head.panel := some 17 }
    [segment .panel none] = [] ++ [segment .panel none] ∧ (segment .panel none).fEnd = none ∧ consts.gap = 1000 ∧
    (w (o 2 false)).findOrder 420 = some (o 2 false) ∧ (w (o 1 false)).findOrder 420 = some (o 1 false) ∧
    (w (o 2 true)).findOrder 420 = some (o 2 true) ∧ (w (o 0 true)).findOrder 420 = some (o 0 true) ∧ (o 0 true).live = 0 ∧
    ({ base with orders := [order .forming] } : State).findOrder (base.panelOrder 17) = none ∧
    ({ w (o 2 false) with web.panels := [panel .forming] } : State).panelOrder 17 = 420 ∧
    cut.head.panel = some 17 ∧ cut.head.flight = none ∧
    ({ cut with head.flight := some (flying true [⟨60, true, 250⟩]) } : State).head.flight =
      some (flying true [⟨60, true, 250⟩]) := by decide

/-- A drain with length left, one that has run, and none, the mark clear and set. -/
theorem test_witness_DrainsOfRunAndStop :
    (running .stopping (some ⟨.drain, some 35000, false, none⟩)).head.run = some ⟨.drain, some 35000, false, none⟩ ∧
    consts.dEntry + 32000 = 35000 ∧
    (running .run (some ⟨.drain, some 0, true, none⟩)).head.run = some ⟨.drain, some 0, true, none⟩ ∧
    (running .run none).head.run = none ∧ (running .run none).head.drainSpent = false ∧
    ({ running .run none with head.drainSpent := true } : State).head.drainSpent = true := by decide

/-- The page of the worked example and a page with every field at a bound. -/
theorem test_witness_RequestsAndPagesReadBack :
    let p : Page := ⟨List.replicate 8 0x20, 11, 5000, 5000, 64, List.replicate 32 ⟨.flat, 255, 2000, 0, -50⟩⟩
    p.name.length = 8 ∧ p.base ≤ 11 ∧ p.waist ≤ 5000 ∧ p.hem ≤ 5000 ∧ 1 ≤ p.motif ∧ p.motif ≤ 64 ∧ p.groups.length ≤ 32 ∧
    ∀ g ∈ p.groups ++ page7.groups, 1 ≤ g.count ∧ g.count ≤ 255 ∧ 20 ≤ g.face ∧ g.face ≤ 2000 ∧ -50 ≤ g.step ∧ g.step ≤ 50 ∧
      (if g.kind = .flat then g.depth = 0 else 20 ≤ g.depth ∧ g.depth ≤ 600) := by decide +kernel


/-! ### Witnesses of further clauses -/

/-- A fold unit and a flat one whose draw the store just covers, with marks behind the blade and ahead of it. -/
theorem test_witness_EndOfEventTakesTheDraw_taken :
    let u := fun (f : Bool) => (⟨f, 500, 500, [], none⟩ : DrawUnit)
    let s := fun (f : Bool) => { base with
      head.wanted := some (u f), line.store := 500, head.marks := [199, 200], head.run := some ⟨.gap, some 500, true, none⟩
      head.bound := some ⟨420, 7, 5, .a, some ⟨2, 300, 7000⟩⟩ }
    [true, false].all (fun (f : Bool) => (s f).head.flight.isNone && !(s f).head.again && decide ((s f).head.wanted = some (u f)) &&
      decide ((u f).draw ≤ (s f).line.store)) = true ∧
    (settle (s false)).head.marks = [200] := by decide +kernel

/-- A flat unit that is no trial and one that is; a panel whose cursor is at the end, and one that goes on with its segment open. -/
theorem test_witness_PanelsCompleteAndAreCut_units :
    let c := fun (x : Section) => (⟨x, 0, 0, 0⟩ : Cursor)
    let s := fun (x : Section) => { base with
      head.panel := some 17, head.cursor := c x, web.panels := [panel .forming]
      web.segs := [{ segment .panel none with panel := some 17 }] }
    (flying false []).unit.fold = false ∧ (flying false []).unit.trial = none ∧
    ({ flying false [] with unit.trial := some 3 }).unit.trial = some 3 ∧ Crease.absent ≠ .present ∧
    (flying true []).unit.fold = true ∧ (s .atEnd).head.panel = some 17 ∧ (s .atEnd).head.cursor.part = .atEnd ∧
    (s .motif).head.cursor.part ≠ .atEnd ∧ base.head.panel = none ∧ base.line.consts = some consts ∧
    base.head.o + (flying true []).unit.output < consts.dEntry + base.chest.entry ∧ (s .motif).findPanel 17 = some (panel .forming) ∧
    (panel .forming).state = .forming ∧ (∀ g ∈ (s .motif).web.segs, g.kind = .panel → g.panel = some 17 → g.oEnd = none) := by
  decide

/-- A chunk of a run that is open and of one that is not, with a segment to spare and with none; the newest segment, the
RUNNING roll, and neither. -/
theorem test_witness_PassageOfASplice_chunks :
    let s := fun (n : Nat) => { inState .run with web.segs := List.replicate n (segment .panel (some 0)) }
    let t := openSeg .flat 41001 none (s 127)
    let kept := fun (z : Option State) => z.all (fun v => decide (v.head.f = (s 127).head.f ∧ v.head.arrival = (s 127).head.arrival ∧
      v.head.passage = (s 127).head.passage ∧ v.line.consts = (s 127).line.consts))
    (s 127).line.consts = some consts ∧ (s 127).bladeRoll = some 41001 ∧ (s 127).web.segs ≠ [] ∧
    (⟨.seek, none, true, none⟩ : Run).opened = true ∧ (⟨.seek, none, false, none⟩ : Run).opened = false ∧
    openSeg .flat 41001 none (s 128) = none ∧ t.isSome = true ∧ kept t = true ∧
    (s 2).web.segs = [segment .panel (some 0)] ++ [segment .panel (some 0)] ∧
    (withRolls [roll 41001 .running (some .a)]).web.segs = [] ∧
    (withRolls [roll 41001 .running (some .a)]).runningRoll = some (roll 41001 .running (some .a)) ∧ base.runningRoll = none ∧
    base.bladeRoll = none := by decide +kernel

/-- A trial of a run that is open and of one that is not, with a segment to spare and with none. -/
theorem test_witness_AlignBladeTrials_wants :
    let s := fun (n : Nat) => { inState .thread with web.segs := List.replicate n (segment .panel (some 0)) }
    let y := openSeg .trial 41001 none (s 127)
    let kept := fun (z : Option State) => z.all (fun v => decide (v.head.f = (s 127).head.f ∧ v.head.arrival = (s 127).head.arrival ∧
      v.head.passage = (s 127).head.passage ∧ v.line.consts = (s 127).line.consts))
    (s 127).line.consts = some consts ∧ (s 127).bladeRoll = some 41001 ∧ (⟨.trial, none, true, none⟩ : Run).opened = true ∧
    (⟨.trial, none, false, none⟩ : Run).purpose = .trial ∧ openSeg .trial 41001 none (s 128) = none ∧ y.isSome = true ∧
    kept y = true := by decide +kernel

/-- A zone at the set-point with a band of 10, at its edges and one degree past them, faulted, without a target; a timer at its due
moment and a millisecond short. -/
theorem test_witness_SetZonesEditsEveryZone_judged :
    let z := fun (r : Nat) => { Zone.initial with reading := r, target := some 1600, setPoint := 1500, timer := some 0 }
    let par := { base.chest.par with band := 10 }
    let s := fun (e r : Bool) => { base with
      chest.zones := List.replicate 4 { Zone.initial with enabled := e, ready := r, faulted := false } }
    Zone.initial.target = none ∧ ({ z 1600 with faulted := true }).faulted = true ∧ (z 1590).target = some 1600 ∧
    (z 1590).faulted = false ∧ (z 1590).reading + par.band = 1600 ∧ (z 1610).reading = 1600 + par.band ∧
    ¬ 1600 ≤ (z 1589).reading + par.band ∧ ¬ (z 1611).reading ≤ 1600 + par.band ∧ Zone.initial.timer = none ∧
    (z 1600).timer = some 0 ∧ 30000 ≤ ((30000 : Clock) - 0).toNat ∧ ((29999 : Clock) - 0).toNat < 30000 ∧
    (∀ y ∈ (s true true).chest.zones, y.enabled = true → y.ready = true) ∧
    (∀ y ∈ (s false false).chest.zones, y.enabled = true → y.ready = true) ∧
    { Zone.initial with enabled := true, ready := false, faulted := false } ∈ (s true false).chest.zones ∧
    (0 < 4 ∧ 3 < 4) := by decide

/-- A position at the start of a segment, one before its end, one at its end, and one in the open segment. -/
theorem test_witness_CrossingsFillTheCells_lookup :
    let lies := fun (x : Nat) (g : Segment) => g.oStart ≤ x ∧ ∀ e ∈ g.oEnd, x < e
    let s := { base with web.segs := [segment .panel (some 500), { segment .flat none with oStart := 500 }] }
    s.web.segs = [] ++ segment .panel (some 500) :: [{ segment .flat none with oStart := 500 }] ∧
    lies 0 (segment .panel (some 500)) ∧ lies 499 (segment .panel (some 500)) ∧ ¬ lies 500 (segment .panel (some 500)) ∧
    s.web.segs = [segment .panel (some 500)] ++ { segment .flat none with oStart := 500 } :: [] ∧
    lies 500 { segment .flat none with oStart := 500 } ∧ ¬ lies 499 { segment .flat none with oStart := 500 } ∧
    base.web.segs = [] := by decide

/-- A page whose groups all pass, one whose second group fails, and a panel drawn from its first unit; a slot with a pending flip. -/
theorem test_witness_ReadAndMeasurePattern_panel :
    let g : Group := ⟨.box, 1, 200, 100, -20⟩
    let p : Page := { page7 with groups := [⟨.flat, 1, 250, 0, 0⟩, g] }
    let s := { ordered slot7 none with
      head.bound := some ⟨420, 7, 5, .a, none⟩, head.meter := some (page7.meter .a 5 200), head.cursor := page7.firstCursor }
    page7.gradeCheck 5 = none ∧ p.groups = [⟨.flat, 1, 250, 0, 0⟩] ++ g :: [] ∧ p.base = 4 ∧
    (20 ≤ (250 : Int) + (5 - 4) * 0 ∧ (250 : Int) + (5 - 4) * 0 ≤ 2000) ∧ ¬ 2 * (100 : Int) ≤ 200 + (5 - 4) * (-20) ∧
    (p.gradeCheck 5).isSome = true ∧ page7.groups ≠ [] ∧ 1 ≤ page7.motif ∧ (∀ y ∈ page7.groups, 1 ≤ y.count) ∧
    s.boundPage = some page7 ∧ s.head.meter = some (page7.meter .a 5 200) ∧ s.head.cursor = page7.firstCursor ∧
    slot7.flip = false ∧ ({ slot7 with flip := true }).flip = true := by decide +kernel

/-- The values of a page: a face and a depth at both bounds and a unit past each. -/
def paged (b m w h : Nat) (g : Group) : List Byte :=
  Page.bytes { page7 with base := b, motif := m, waist := w, hem := h, groups := [g] }

/-- Areas of 15 and 16 bytes; group counts 0, 1, 32 and 33; a total that disagrees; each read that faults. -/
theorem test_witness_PageFetchEnds_fetch :
    let s := fun (g : Nat) => poke 0x2000 (List.replicate 14 0 ++ [b8 g]) base
    let d := fun (n : Nat) => DataArea.contiguous 0x2000 (BitVec.ofNat 16 n)
    let count := fun (g : Nat) => ((s g).load (dataAddrs (d 32) 16)).map (fun hd => (byteAt hd 0x0E).toNat)
    let cut := fun (a : Nat) => { s 1 with bus := ⟨[⟨a, 1⟩], []⟩ }
    dataTotal (d 15) < 16 ∧ 16 ≤ dataTotal (d 16) ∧ (cut 0x200F).load (dataAddrs (d 16) 16) = none ∧ count 0 = some 0 ∧
    count 1 = some 1 ∧ count 32 = some 32 ∧ count 33 = some 33 ∧ dataTotal (d 24) = 16 + 8 * 1 ∧ dataTotal (d 32) ≠ 16 + 8 * 1 ∧
    (cut 0x2017).load (dataAddrs (d 24) (16 + 8 * 1)) = none ∧ ((cut 0x2017).load (dataAddrs (d 24) 16)).isSome = true ∧
    ((s 1).load (dataAddrs (d 24) (16 + 8 * 1))).isSome = true := by decide +kernel

/-- Each first failure of R8 in turn, the range checks passed, the grade check that fails, and the limits that fail. -/
theorem test_witness_PageFetchEnds_validate :
    let g : Group := ⟨.knifeLeft, 1, 20, 20, -50⟩
    let head := fun (bs : List Byte) => [(byteAt bs 8).toNat, (byteAt bs 9).toNat, (u16At bs 10).toNat, (u16At bs 12).toNat]
    let group := fun (bs : List Byte) =>
      ([(byteAt bs 16).toNat, (byteAt bs 17).toNat, (u16At bs 18).toNat, (u16At bs 20).toNat], (byteAt bs 22).toInt)
    let one := fun (y : Group) => group (paged 4 1 0 0 y)
    let least := fun (y : Group) => { page7 with motif := 1, waist := 0, hem := 0, groups := [y] }
    [paged 12 1 0 0 g, paged 11 1 5001 0 g, paged 11 1 5000 5001 g, paged 11 0 5000 5000 g, paged 11 65 0 0 g, paged 11 64 0 0 g].map
      head = [[12, 1, 0, 0], [11, 1, 5001, 0], [11, 1, 5000, 5001], [11, 0, 5000, 5000], [11, 65, 0, 0], [11, 64, 0, 0]] ∧
    group ((paged 4 1 0 0 g).set 16 5) = ([5, 1, 20, 20], -50) ∧
    [g, { g with count := 0 }, { g with face := 19 }, { g with face := 2001 }, { g with depth := 601 }].map one =
      [([1, 1, 20, 20], -50), ([1, 0, 20, 20], -50), ([1, 1, 19, 20], -50), ([1, 1, 2001, 20], -50), ([1, 1, 20, 601], -50)] ∧
    [⟨.flat, 1, 20, 1, 0⟩, { g with step := 51 }, ⟨.box, 255, 2000, 600, 50⟩].map one =
      [([0, 1, 20, 1], 0), ([1, 1, 20, 20], 51), ([3, 255, 2000, 600], 50)] ∧
    ((least ⟨.box, 1, 20, 20, 0⟩).gradeCheck 4).isSome = true ∧ (least ⟨.flat, 1, 999, 0, 0⟩).gradeCheck 4 = none ∧
    (least ⟨.flat, 1, 999, 0, 0⟩).totalW 4 = 999 ∧ (least ⟨.flat, 20, 2000, 0, 0⟩).gradeCheck 4 = none ∧
    (least ⟨.flat, 20, 2000, 0, 0⟩).totalW 4 = 40000 ∧ (least ⟨.flat, 20, 2000, 0, 0⟩).totalN 4 = 40000 := by decide +kernel

/-- An amended page that the first of two orders passes and the second fails. -/
theorem test_witness_PageFetchEnds_orders :
    let o := { order .queued with size := 4 }
    (∀ y ∈ [o], steepPage.gradeCheck y.size = none) ∧ (steepPage.gradeCheck (order .queued).size).isSome = true ∧
    ({ base with orders := [o, order .forming] } : State).formingOf 7 = true := by decide +kernel

/-- The outcome of a press with a panel that the splice point cuts into, one just clear of it, and none. -/
theorem test_witness_EndsOfAPress_answers :
    let t : Turret := { base.turret with outgoing := some ⟨41001, .a⟩, incoming := some ⟨41002, .b⟩ }
    let s := { withRolls [roll 41001 .running (some .a)] with head.panel := some 17, head.committed := 7001 }
    t.outgoing = some ⟨41001, .a⟩ ∧ t.incoming = some ⟨41002, .b⟩ ∧ s.findRoll 41001 = some (roll 41001 .running (some .a)) ∧
    s.line.consts = some consts ∧ s.head.panel ≠ none ∧ 8000 < s.head.committed + consts.guardLen ∧
    ¬ 8001 < s.head.committed + consts.guardLen ∧ base.head.panel = none := by decide

/-- A kind with a data area and one without; the flag; counts 0, 1, 16 and 17; a list that faults, and one whose second entry is empty. -/
theorem test_witness_BlockReadDispatches_list :
    let h := fun (n : Nat) => (⟨0x29, true, false, 8, BitVec.ofNat 16 n, 0x3000, 0⟩ : Header)
    let gs : List DataSeg := [⟨0, 8⟩, ⟨8, 0⟩, ⟨16, 0⟩]
    kindHasData (h 1).kind = true ∧ (h 1).segmented = true ∧ kindHasData 0x3D = false ∧ (h 0).len.toNat = 0 ∧ (h 1).len.toNat = 1 ∧
    (h 16).len.toNat = 16 ∧ (h 17).len.toNat = 17 ∧ (base.load (addrs (h 16).addr.toNat (8 * 16))).isSome = true ∧
    ({ base with bus := ⟨[⟨0x3007, 1⟩], []⟩ } : State).load (addrs (h 1).addr.toNat (8 * 1)) = none ∧
    gs = [⟨0, 8⟩] ++ ⟨8, 0⟩ :: [⟨16, 0⟩] ∧ gs.length ≤ 16 ∧ (∀ y ∈ [(⟨0, 8⟩ : DataSeg)], y.len ≠ 0) ∧
    (1 ≤ [(⟨0, 1⟩ : DataSeg)].length ∧ ∀ y ∈ [(⟨0, 1⟩ : DataSeg)], y.len ≠ 0) := by decide +kernel

/-- Each field of an order one past its range, with every later field past its own: the first is the one named (R51, step 1). -/
theorem test_witness_PlaceOrderDecided_fields :
    let a : OrderArgs := orderArgs true 1
    let n := { a with n := 1000, remakes := 16, mult := 13, offset := 5001, rep := 499 }
    let m := { n with n := 999, remakes := 15 }
    orderFail (ask 0) { n with pattern := 48, size := 12, cls := 3, reg := 2 } = some (badField keyField [0]) ∧
    orderFail (ask 65535) { n with pattern := 48, size := 12, cls := 3, reg := 2 } = some (badField (fieldId 0 0) [48]) ∧
    orderFail (ask 65535) { n with size := 12, cls := 0, reg := 2 } = some (badField (fieldId 0 1) [12]) ∧
    orderFail (ask 65535) { n with cls := 0, reg := 2 } = some (badField (fieldId 0 2) [0]) ∧
    orderFail (ask 65535) { n with reg := 2 } = some (badField (fieldId 0 3) [2]) ∧
    orderFail (ask 65535) n = some (badField (fieldId 0 4) [1000]) ∧
    orderFail (ask 65535) { n with n := 1 } = some (badField (fieldId 0 6) [16]) ∧
    orderFail (ask 65535) m = some (badField (fieldId 0 7) [13]) ∧
    orderFail (ask 65535) { m with mult := 12 } = some (badField (fieldId 0 8) [5001]) ∧
    orderFail (ask 65535) { m with mult := 12, offset := 5000 } = some (badField (fieldId 0 10) [499]) := by decide +kernel

/-- A live panel of an order behind one that has EXITED, and an order whose panels all have. -/
theorem test_witness_PlaceOrderDecided_carrier :
    let s := { base with web.panels := [panel .exited, { panel .inPath with id := 18 }, { panel .forming with id := 19 }] }
    s.web.panels = [panel .exited] ++ { panel .inPath with id := 18 } :: [{ panel .forming with id := 19 }] ∧
    (panel .inPath).order = 420 ∧ (panel .inPath).state ≠ .exited ∧ (∀ y ∈ [panel .exited], y.order = 420 → y.state = .exited) ∧
    (∀ p ∈ ({ base with web.panels := [panel .exited] } : State).web.panels, p.order = 420 → p.state = .exited) := by
  decide

/-- A RUNNING roll of a VALID class, and no RUNNING roll. -/
theorem test_witness_CandidatesBindInTurn_running :
    base.runningRoll = none ∧ (ordered slot7 none).runningRoll = some (roll 41001 .running (some .a)) ∧
    (ordered slot7 none).fibre (roll 41001 .running (some .a)).cls = some ⟨1400, 1900, 24000, 200⟩ := by decide

/-- A NORMAL order placed before a RUSH one and a FORMING one stands last in queue sequence. -/
theorem test_witness_ReadsReturnTheirRecords_place :
    let o := fun (tag : Nat) (c : OrderClass) (st : OrderState) => { order st with tag := tag, cls := c }
    let s := { base with orders := [o 1 .normal .queued, o 2 .rush .queued, o 3 .normal .forming] }
    s.queueSeq = [o 3 .normal .forming, o 2 .rush .queued] ++ o 1 .normal .queued :: [] ∧
    (∀ y ∈ [o 3 .normal .forming, o 2 .rush .queued], y.tag ≠ 1) := by decide

/-- A watched SPENT roll on no spindle with no web left, the same roll with web left, one with no watch, and one unknown. -/
theorem test_witness_SegmentsOpenMergeAndClose_retired :
    let r := { roll 41001 .spent none with watch := some 1 }
    (withRolls [r]).findRoll 41001 = some r ∧ r.state = .spent ∧ r.refs = 0 ∧ r.spindle = none ∧ r.watch ≠ none ∧
    (withRolls [{ r with refs := 1 }]).findRoll 41001 = some { r with refs := 1 } ∧ ({ r with refs := 1 }).refs ≠ 0 ∧
    (roll 41001 .spent none).watch = none ∧ base.findRoll 41001 = none := by decide

/-- A head with a panel bound and with none; a run of the purpose asked for and one of another. -/
theorem test_witness_BoundaryTakesTheFirstAction_bound :
    let s := running .run (some ⟨.gap, some 500, true, none⟩)
    base.head.bound = none ∧ ({ s with head.bound := some ⟨420, 7, 5, .a, none⟩ } : State).head.bound = some ⟨420, 7, 5, .a, none⟩ ∧
    s.head.run = some ⟨.gap, some 500, true, none⟩ ∧ (⟨.gap, some 500, true, none⟩ : Run).purpose = .gap ∧
    (∀ r ∈ s.head.run, r.purpose ≠ .wait) := by decide

/-- R105: with a full return ring the retirement that the counts end waits to be posted before the delivery of the purged panel. -/
theorem test_purge_posts_in_order :
    let call := fun (no : Nat) (c : Call) => (⟨no, 0x1000 * no, false, .running, some ({ ask 0 with block := 0x1000 * no }, c)⟩ : Entry)
    let s := poke 0x9004 [1] { withRolls [{ roll 41001 .spent none with refs := 1, watch := some 2 }] with
      web.segs := [{ segment .panel (some 500) with panel := some 17 }], web.panels := [panel .inPath], web.awaits := [3]
      port.table := [call 2 .retireRoll, call 3 .awaitPanelExit] }
    (purgeWeb s).port.posting.map PostItem.no = [2, 3] ∧ (purgeWeb s).web.segs = [] ∧ (purgeWeb s).turret.rolls = [] := by
  decide +kernel

/-- A return slot that is not FREE, a port that is not READY, and a scan that is SUSPENDED and one that is not. -/
theorem test_witness_PostsGoOutInOrder_joins :
    (posting 1 []).port.state = .ready ∧ (posting 1 []).port.ret = some ⟨0x9000, 4, 0⟩ ∧
    (posting 1 []).load [0x9000 + 8 * 0 + 4] = some [1] ∧ (1 : Byte) ≠ 0 ∧ State.reset.port.state ≠ .ready ∧
    ({ base with port.scan := .suspended } : State).port.scan = .suspended ∧ base.port.scan ≠ .suspended ∧
    (∃ y ∈ (posting 1 []).port.table, y.no = 1) ∧ (∀ y ∈ (posting 1 []).port.table, y.no ≠ 2) := by decide +kernel

/-- An entry unknown, one whose request is not known and one that is held; a sense byte that reads and one that faults; a byte written at
an address that faults and at one that does not. -/
theorem test_witness_CompletionWritesItsFields_conclude :
    base.entry 2 = none ∧ base.entry 1 = some taken ∧ taken.req = none ∧
    (held .running .hold).entry 1 = some ⟨1, 0x1000, false, .running, some (ask 0, .hold)⟩ ∧ base.load [0x1000 + 2] = some [0] ∧
    ({ base with bus := ⟨[⟨0x1002, 1⟩], []⟩ } : State).load [0x1000 + 2] = none ∧ faultsAt [⟨0x1002, 1⟩] 0x1002 = true ∧
    faultsAt [⟨0x1002, 1⟩] 0x1003 = false ∧ (refusal .noRecord Sense.none).code ≠ .done ∧ 15 < senseRoom 0 ∧ 63 < senseRoom 64 ∧
    (settledAnswer (ask 0) done base).code = .done := by decide +kernel

/-- An open PANEL segment, in each kind of line state. -/
theorem test_witness_PanelsCompleteAndAreCut_whole :
    let s := fun st => { inState st with web.segs := [segment .flat (some 500), segment .panel none], web.panels := [panel .forming] }
    (s .run).web.segs = [segment .flat (some 500)] ++ [segment .panel none] ∧ (segment .panel none).fEnd = none ∧
    (segment .panel none).kind = .panel ∧ (s .stopping).line.state = .stopping ∧ (s .thread).line.state = .thread ∧
    (s .run).line.state ≠ .stopping ∧ (s .run).line.state ≠ .thread ∧ (s .run).findPanel 17 = some (panel .forming) := by decide

/-- A draw of 500 from a store that is left at the upper threshold, below the lower one, and between. -/
theorem test_witness_EndOfEventTakesTheDraw_latch :
    let u : DrawUnit := ⟨false, 500, 500, [], none⟩
    let s := fun (a : Nat) => { base with head.wanted := some u, line.store := a }
    let c := (s 0).k.cap
    (s 90500).head.flight = none ∧ (s 90500).head.again = false ∧ (s 90500).head.wanted = some u ∧ u.draw ≤ 90500 ∧
    c - c / 10 ≤ 90500 - u.draw ∧ (50499 - u.draw < c - c / 10 ∧ 50499 - u.draw < c / 2) ∧
    (50500 - u.draw < c - c / 10 ∧ c / 2 ≤ 50500 - u.draw) := by decide

/-- An outgoing roll, the only one that runs, and an incoming one. -/
theorem test_witness_EndsOfAPress_exchange :
    let s := withRolls [roll 41001 .running (some .a), roll 41002 .prepared (some .b)]
    (41001 : Nat) ≠ 41002 ∧ SpindleId.a ≠ .b ∧ s.line.consts = some consts ∧ s.findRoll 41002 = some (roll 41002 .prepared (some .b)) ∧
    (∀ y ∈ s.turret.rolls, y.state = .running → y.tag = 41001) := by decide

/-- A block that no entry names, a header that faults, and for a request row each check of the port: no taken entry, a sense allocation
of 7, an empty segment list, a fifth Await, and all passed. -/
theorem test_witness_BlockReadDispatches_rows :
    let c : Call := .awaitPanelExit
    let four := { base with
      port.table := taken :: List.replicate 4 ⟨2, 0x2000, false, .running, some (ask 0, .awaitPanelExit)⟩ }
    requestOf (.awaitPanelExit Env.quiet (ask 0)) = some (ask 0, c) ∧ base.takenEntry 0x3000 = none ∧
    base.takenEntry 0x1000 = some taken ∧ ({ base with bus := ⟨[⟨0x101F, 1⟩], []⟩ } : State).load (addrs 0x1000 32) = none ∧
    senseOk 7 = false ∧ senseOk 8 = true ∧ callHasData c = true ∧ (dataFail (.segmented [])).isSome = true ∧
    dataFail (ask 0).data = none ∧ four.takenEntry 0x1000 = some taken ∧ 4 ≤ four.heldAwaits.length ∧ base.heldAwaits.length < 4 ∧
    base.port.table = [] ++ taken :: [] ∧ (taken.abort = false ∧ taken.block = 0x1000 ∧ taken.stage = .taken ∧ taken.req = none) := by
  decide +kernel

/-- A zone for each ground on which the duty stays. -/
theorem test_witness_ZoneSamplesWorked_stays :
    Zone.initial.target = none ∧ ({ Zone.initial with enabled := false }).enabled = false ∧
    ({ Zone.initial with faulted := true }).faulted = true ∧ ({ Zone.initial with purging := true }).purging = true := by decide

/-- THREAD with a passage in progress and with none, a trial wanted. -/
theorem test_witness_AlignBladeTrials_ends :
    let s := { inState .thread with web.segs := [segment .trial none], head.align := some ⟨some 1, 3, 3, none⟩ }
    s.line.state = .thread ∧ s.head.passage = .none ∧ ({ s with head.passage := .guard } : State).head.passage ≠ .none ∧
    (finishAlign ⟨some 1, 3, 3, none⟩ done { s with head.o := 200, head.f := 200 }).web.segs =
      [{ segment .trial none with fEnd := some 200, oEnd := some 200 }] := by decide +kernel

/-- An open newest FLAT segment that holds no web, behind another and alone. -/
theorem test_witness_SegmentsOpenMergeAndClose_empty :
    let g := { segment .flat none with oStart := 500 }
    let s := { base with web.segs := [segment .panel (some 500), g], head.o := 500 }
    s.web.segs = [segment .panel (some 500)] ++ [g] ∧ g.fEnd = none ∧ g.oStart = s.head.o ∧ g.kind ≠ .panel ∧
    ({ base with web.segs := [g], head.o := 500 } : State).web.segs = [] ++ [g] := by decide

/-- A block that passes with its flag set, in OFF with an arrival pending. -/
theorem test_witness_BootstrapEndsReadyOrFailed_arrival :
    let s := { initialising 0x8000 64 0x8200 4 1 consts with head.arrival := some ⟨9000, 41002⟩ }
    foundBlock s = some (true, true, true) ∧ s.line.state = .off ∧ s.head.arrival ≠ none ∧ s.port.state = .initialising := by
  decide +kernel

/-- A start on a blade roll that waits for its retirement, its count too low (as no run leaves it): the append ends the retirement, with a
return ring that takes the post and with one that faults. -/
theorem test_witness_PanelStartsWhenItsTestsPass_port :
    let s := fun (faults : List Span) => { withRolls [{ roll 41001 .spent none with watch := some 1 }] with
      line.state := .run, web.segs := [segment .flat none], bus := ⟨faults, []⟩
      port.table := [⟨1, 0x1000, false, .running, some (ask 0, .retireRoll)⟩] }
    let t := fun (y : State) => startPanel ⟨420, 7, 5, .a, none⟩ page7 41001 false y
    (s []).line.state = .run ∧ (s []).bladeRoll = some 41001 ∧ (t (s [])).port.state = (s []).port.state ∧
    (t (s [⟨0x9004, 1⟩])).port.state ≠ (s [⟨0x9004, 1⟩]).port.state := by decide +kernel

end Sys2Proof.Tests
end

/-! ### Every step keeps the invariants (O59) -/

namespace Sys2Proof.Machine

/-- A command after which the head goes on keeps what its operation keeps. -/
theorem event_good {f : State → State} (hf : ∀ t, Good t (f t)) (e : Env) (s : State) :
    ∃ t, event e f s = .next t ∧ Good (arrive e s) t :=
  ⟨_, rfl, (hf _).trans (settle_sure _).good⟩

/-- The end of the reading of a request block keeps what the decision of the request keeps. -/
theorem serve_decideCall_good (q : Req) (c : Call) (s : State) : Good s (serve q c (fun no => decideCall no q c) s) :=
  serve_good (fun no t => decideCall_good no q c t) s

/-- A request row serves its request by the decision of the block that owns it; a row that only reads leaves the head as it is. -/
theorem exec_of_requestOf {i : Instr} {q : Req} {c : Call} (h : requestOf i = some (q, c)) (s : State) :
    exec i s = if readsOnly c then query (commandEnv i) q c (fun no => decideCall no q c) s
      else request (commandEnv i) q c (fun no => decideCall no q c) s := by
  cases i <;> cases h <;> rfl

/-- Every command but POWER_ON completes, and keeps the invariants and what `Good` names from the state it arrives in. -/
theorem exec_good {i : Instr} (hi : ∀ e l, i ≠ .powerOn e l) (s : State) :
    ∃ t, exec i s = .next t ∧ Good (arrive (commandEnv i) s) t := by
  rcases hq : requestOf i with _ | ⟨q, c⟩
  · cases i
    case powerOn e l => exact absurd rfl (hi e l)
    case bootstrapWrite => exact ⟨_, rfl, (bootstrapWrite_sure _ _).good⟩
    case bootstrapEnd => exact event_good bootstrapEnd_good _ s
    case scanStrobe => exact ⟨_, rfl, (strobe_sure _).good⟩
    case attentionWrite => exact ⟨_, rfl, (lowerAttention_sure _).good⟩
    case interfaceReset => exact ⟨_, rfl, (resetPort_sure _).good⟩
    case slotExamination => exact event_good examineSlot_good _ s
    case requestBlockRead => exact event_good (blockRead_good _) _ s
    case pageFetchDone => exact event_good (fetchDone_good _) _ s
    case meteringAdvance => exact event_good (fun t => (meterTravel_sure _ t).good) _ s
    case pleatDone => exact event_good (pleatReport_good _) _ s
    case unwindAdvance => exact event_good (unwindReport_good _) _ s
    case markSensor => exact event_good (fun t => (enterMark_sure t).good) _ s
    case spindleReady => exact event_good (fun t => (spindleInput_sure _ _ t).good) _ s
    case coreRemoved => exact event_good (fun t => (coreInput_sure _ _ t).good) _ s
    case spliceMade => exact event_good (spliceInput_good _) _ s
    case zoneSample => exact event_good (sampleReport_good _ _) _ s
    case emergencyStopInput => exact event_good (estopInput_good _) _ s
    case driveFaultInput => exact event_good (driveInput_good _) _ s
    case feedStall => exact event_good stallExpiry_good _ s
    case startDeadlineExpiry => exact event_good (fun t => (startExpiry_sure t).good) _ s
    case spliceTimeout => exact event_good pressExpiry_good _ s
    case purgeBegin => exact event_good (fun t => (purgeStart_sure _ t).good) _ s
    case purgeEnd => exact event_good (fun t => (purgeStop_sure _ t).good) _ s
    all_goals cases hq
  · rw [exec_of_requestOf hq]
    have served := serve_decideCall_good q c (arrive (commandEnv i) s)
    split
    · exact ⟨_, rfl, served⟩
    · exact ⟨_, rfl, served.trans (settle_sure _).good⟩

/-- The power-on values meet every invariant, whatever the input levels and whatever waits, with shared memory in canonical form. -/
theorem poweredOn_inv (l : Levels) {mem : Memory} (hm : mem.wf = true) (bus : Bus) (pending : List Instr) :
    Inv (State.poweredOn l mem bus pending) where
  mem := hm
  shape := ⟨rfl, rfl, rfl, rfl⟩
  trial := ⟨⟨trialSlot, rfl, rfl, rfl, rfl, rfl, rfl, rfl⟩, nofun, nofun⟩
  store := nofun
  range := by simp [State.speedsInRange, State.poweredOn, Line.initial, SpeedRange.min, SpeedRange.max]
  speed := ⟨rfl, rfl⟩
  press := ⟨rfl, fun _ => rfl⟩
  rolls := nofun
  tags := List.nodup_nil
  table := Nat.zero_le _
  held := fun _ => by
    have idle : ∀ x ∈ trialSlot :: List.replicate 47 freeSlot, x.busy = false ∧ x.watch = none := by
      simp [trialSlot, freeSlot]
    exact ⟨⟨rfl, rfl, rfl, rfl, rfl, rfl⟩, ⟨rfl, rfl, idle⟩, nofun, ⟨nofun, rfl, rfl, rfl⟩, rfl, nofun⟩
  head := rfl
  holds := rfl
  halts := ⟨by simp [State.poweredOn, Line.initial], fun _ => rfl⟩

/-- Every command keeps the invariants. -/
theorem exec_inv {i : Instr} {s t : State} (h : Inv s) (ht : exec i s = .next t) : Inv t := by
  by_cases hp : ∃ e l, i = .powerOn e l
  · obtain ⟨e, l, rfl⟩ := hp
    cases ht
    exact poweredOn_inv l (arrive_inv e h).mem _ _
  · obtain ⟨u, hu, good⟩ := exec_good (fun e l he => hp ⟨e, l, he⟩) s
    rw [hu] at ht
    cases ht
    exact good.inv (arrive_inv _ h)

/-- Settles O59: a step is a millisecond of the line clock, or a command on the queue's rest, which no invariant mentions. -/
theorem everyStepKeepsTheInvariants : Obligations.EveryStepKeepsTheInvariants := by
  intro s t h ht
  unfold step at ht
  split at ht
  next => cases ht; exact tick_inv 1 h
  next c rest _ =>
    have hrest : Inv { s with pending := rest } := { h with }
    exact exec_inv hrest ht

/-! ### Reset and power-on (O3, O4) -/

/-- Settles O4: the state after reset is a state of power-on values, with nothing in shared memory. -/
theorem resetMeetsTheInvariants : Obligations.ResetMeetsTheInvariants := poweredOn_inv _ rfl _ _

/-- Settles O3: the slots above 0 are copies of one FREE slot and the zones of one zone; every other value stands as it is written in the
power-on values. -/
theorem resetAndPowerOn : Obligations.ResetAndPowerOn := by
  have free : ∀ n, 1 ≤ n → n ≤ 47 → State.reset.lib.slots[n]? = some freeSlot := by
    intro n h1 h2
    obtain ⟨m, rfl⟩ := Nat.exists_eq_add_of_le' h1
    exact List.getElem?_replicate_of_lt (by omega)
  have zones : ∀ z ∈ State.reset.chest.zones,
      z.enabled = true ∧ z.setPoint = 1000 ∧ z.target = none ∧ z.duty = 0 ∧ z.ready = false := by
    intro z hz
    rw [List.eq_of_mem_replicate hz]
    exact ⟨rfl, rfl, rfl, rfl, rfl⟩
  exact ⟨⟨⟨rfl, rfl, free, rfl, rfl⟩, ⟨rfl, rfl, rfl, rfl, rfl⟩, ⟨rfl, rfl, rfl⟩, ⟨rfl, rfl, rfl, rfl, rfl, rfl, rfl, rfl⟩,
    ⟨rfl, rfl, rfl, rfl, rfl⟩, ⟨rfl, zones, rfl, rfl, rfl⟩, ⟨rfl, rfl, rfl, rfl, rfl, rfl, rfl, rfl, rfl, rfl, rfl, rfl⟩,
    ⟨rfl, rfl, rfl, rfl⟩, ⟨rfl, rfl, rfl, rfl, rfl⟩⟩, fun e l s => rfl⟩

end Sys2Proof.Machine

/-! ### The commands of requests that reach their owner -/

namespace Sys2Proof.Machine

/-- A request that may wake the head, reaching its owner: its decision, and the end of the event. -/
theorem exec_of_dispatches {i : Instr} {q : Req} {c : Call} {s t : State} {x : Entry}
    (h : dispatches (commandEnv i) q c s x = true) (hi : requestOf i = some (q, c)) (hc : readsOnly c = false)
    (ht : decideCall x.no q c (dispatched (commandEnv i) q c s x) = t) : exec i s = .next (settle t) := by
  rw [exec_of_requestOf hi, hc, ← ht]
  exact request_of_dispatches h _

/-- A request that only reads, reaching its owner: its decision alone. -/
theorem exec_of_dispatches_readsOnly {i : Instr} {q : Req} {c : Call} {s t : State} {x : Entry}
    (h : dispatches (commandEnv i) q c s x = true) (hi : requestOf i = some (q, c)) (hc : readsOnly c = true)
    (ht : decideCall x.no q c (dispatched (commandEnv i) q c s x) = t) : exec i s = .next t := by
  rw [exec_of_requestOf hi, hc, ← ht]
  exact query_of_dispatches h _

/-! ### Define, Amend and Retire Pattern (O15) -/

section PatternDecisions

variable {no : Nat} {q : Req} {s : State}

/-- R6, R10, R11, R15: what Define, Amend and Retire Pattern answer before they look at the slot's state. -/
theorem patternGate {c : Call} (hc : c = .definePattern ∨ c = .amendPattern ∨ c = .retirePattern) :
    (47 < q.key.toNat → decideCall no q c s = conclude no (badField keyField [natVal q.key.toNat]) s) ∧
    (q.key.toNat = 0 → decideCall no q c s = conclude no (refusal .protect Sense.none) s) ∧
    (1 ≤ q.key.toNat → q.key.toNat ≤ 47 → (s.slot q.key.toNat).busy = true →
      decideCall no q c s = holdWaiting no (.slot q.key.toNat) s) := by
  have above : ∀ {n : Nat}, n ≤ 47 → ¬ 47 < n := fun h => Nat.not_lt.2 h
  have pos : ∀ {n : Nat}, 1 ≤ n → n ≠ 0 := fun h => Nat.ne_of_gt h
  rcases hc with rfl | rfl | rfl
  · refine ⟨fun h => if_pos h, fun h => ?_, fun h1 h2 hb => ?_⟩
    · simp [decideCall, decideDefine, patternOf, h]
    · simp [decideCall, decideDefine, patternOf, above h2, pos h1, hb]
  · refine ⟨fun h => if_pos h, fun h => ?_, fun h1 h2 hb => ?_⟩
    · simp [decideCall, decideAmend, patternOf, h]
    · simp [decideCall, decideAmend, patternOf, above h2, pos h1, hb]
  · refine ⟨fun h => if_pos h, fun h => ?_, fun h1 h2 hb => ?_⟩
    · simp [decideCall, decideRetirePattern, patternOf, h]
    · simp [decideCall, decideRetirePattern, patternOf, above h2, pos h1, hb]

variable (h1 : 1 ≤ q.key.toNat) (h2 : q.key.toNat ≤ 47) (hb : (s.slot q.key.toNat).busy = false)
include h1 h2 hb

/-- R10: Define Pattern on a slot that is not busy. -/
theorem decideDefine_idle : decideDefine no q s =
    if (s.slot q.key.toNat).state ≠ .free then
      conclude no (refusal .duplicate (senseVals [natVal (s.slot q.key.toNat).state.code, natVal (s.slot q.key.toNat).uses])) s
    else beginFetch no q.key.toNat false s := by
  rw [decideDefine, patternOf, if_neg (by omega), if_neg (by omega), if_neg (by simp [hb])]

/-- R11: Amend Pattern on a slot that is not busy. -/
theorem decideAmend_idle : decideAmend no q s =
    if (s.slot q.key.toNat).state = .free then conclude no (refusal .noRecord Sense.none) s
    else beginFetch no q.key.toNat true s := by
  rw [decideAmend, patternOf, if_neg (by omega), if_neg (by omega), if_neg (by simp [hb])]

/-- R15, R16: Retire Pattern on a slot that is not busy, by the slot's state, its use count and its watch. -/
theorem decideRetirePattern_idle :
    ((s.slot q.key.toNat).state = .free → decideRetirePattern no q s = conclude no (refusal .noRecord Sense.none) s) ∧
    ((s.slot q.key.toNat).state = .active → decideRetirePattern no q s =
      if (s.slot q.key.toNat).uses = 0 then conclude no done (s.mapSlot q.key.toNat freedSlot)
      else holdRunning no (s.mapSlot q.key.toNat (fun y => { y with state := .retiring, watch := some no }))) ∧
    ((s.slot q.key.toNat).state = .retiring → decideRetirePattern no q s =
      if (s.slot q.key.toNat).watch.isSome then
        conclude no (refusal .wrongState (senseVals [natVal (s.slot q.key.toNat).uses])) s
      else holdRunning no (s.mapSlot q.key.toNat (fun y => { y with watch := some no }))) := by
  rw [decideRetirePattern, patternOf, if_neg (by omega), if_neg (by omega), if_neg (by simp [hb])]
  refine ⟨fun h => ?_, fun h => ?_, fun h => ?_⟩ <;> rw [h]

end PatternDecisions

/-- R6, R7: an assembly buffer obtained, A before B, or waited for. -/
theorem beginFetch_eq (no n : Nat) (amend : Bool) (s : State) : beginFetch no n amend s =
    if s.lib.bufA = none then
      holdRunning no { s.mapSlot n (fun y => { y with busy := true }) with lib.bufA := some ⟨no, n, amend⟩ }
    else if s.lib.bufB = none then
      holdRunning no { s.mapSlot n (fun y => { y with busy := true }) with lib.bufB := some ⟨no, n, amend⟩ }
    else holdWaiting no .buffers s := by
  simp only [beginFetch, Option.isNone_iff_eq_none]

/-- Settles O15: each request is decided by the gate it shares with the others, and then by its slot's state. -/
theorem patternRequestsByTheirSlot : Obligations.PatternRequestsByTheirSlot := by
  refine ⟨?_, ?_, ?_⟩
  · intro e q s x n held h1 h2
    constructor
    · intro hd u hb
      have idle := decideDefine_idle (no := x.no) h1 h2 hb
      constructor
      · intro hf
        exact exec_of_dispatches hd rfl rfl ((idle.trans (if_neg (not_not.2 hf))).trans (beginFetch_eq _ _ _ _))
      · intro hf
        exact exec_of_dispatches hd rfl rfl (idle.trans (if_pos hf))
    · intro hd u hb
      have idle := decideAmend_idle (no := x.no) h1 h2 hb
      constructor
      · intro hf
        exact exec_of_dispatches hd rfl rfl ((idle.trans (if_neg hf)).trans (beginFetch_eq _ _ _ _))
      · intro hf
        exact exec_of_dispatches hd rfl rfl (idle.trans (if_pos hf))
  · intro e q s x c k hk hd u n
    have hc : k = .definePattern ∨ k = .amendPattern ∨ k = .retirePattern := hk.imp And.right (Or.imp And.right And.right)
    have decided : ∀ t, decideCall x.no q k u = t → exec c s = .next (settle t) := by
      intro t ht
      rcases hk with ⟨rfl, rfl⟩ | ⟨rfl, rfl⟩ | ⟨rfl, rfl⟩ <;> exact exec_of_dispatches hd rfl rfl ht
    obtain ⟨above, zero, busy⟩ := patternGate (no := x.no) (q := q) (s := u) hc
    exact ⟨fun h => decided _ (above h), fun h => decided _ (zero h), fun h1 h2 hb => decided _ (busy h1 h2 hb)⟩
  · intro e q s x hd u n y h1 h2 hb
    obtain ⟨free, active, retiring⟩ := decideRetirePattern_idle (no := x.no) h1 h2 hb
    refine ⟨fun hs => ?_, fun hs hu => ?_, fun hs hu => ?_, fun hs hw => ?_, fun hs hw => ?_⟩
    · exact exec_of_dispatches hd rfl rfl (free hs)
    · exact exec_of_dispatches hd rfl rfl ((active hs).trans (if_pos hu))
    · exact exec_of_dispatches hd rfl rfl ((active hs).trans (if_neg hu))
    · exact exec_of_dispatches hd rfl rfl ((retiring hs).trans (if_pos hw))
    · have absent : ¬ y.watch.isSome = true := by simp [hw]
      exact exec_of_dispatches hd rfl rfl ((retiring hs).trans (if_neg absent))

end Sys2Proof.Machine

/-! ### Fields of a byte list (11_formats.md) -/

namespace Sys2Proof.Machine

/-- A number is written in as many bytes as asked. -/
@[simp] theorem leBytes_length (n v : Nat) : (leBytes n v).length = n := by
  induction n generalizing v with
  | zero => rfl
  | succ n ih => simp [leBytes, ih]

@[simp] theorem le_length (n v : Nat) : (le n v).length = n := leBytes_length n v

@[simp] theorem zeros_length (n : Nat) : (zeros n).length = n := List.length_replicate

theorem leBytes_two (v : Nat) : leBytes 2 v = [BitVec.ofNat 8 v, BitVec.ofNat 8 (v / 256)] := rfl

theorem leBytes_four (v : Nat) : leBytes 4 v =
    [BitVec.ofNat 8 v, BitVec.ofNat 8 (v / 256), BitVec.ofNat 8 (v / 256 / 256), BitVec.ofNat 8 (v / 256 / 256 / 256)] := rfl

@[simp] theorem byteAt_cons_zero (b : Byte) (bs : List Byte) : byteAt (b :: bs) 0 = b := rfl

@[simp] theorem byteAt_cons_succ (b : Byte) (bs : List Byte) (i : Nat) : byteAt (b :: bs) (i + 1) = byteAt bs i := rfl

@[simp] theorem u16At_cons_succ (b : Byte) (bs : List Byte) (i : Nat) : u16At (b :: bs) (i + 1) = u16At bs i := rfl

@[simp] theorem u32At_cons_succ (b : Byte) (bs : List Byte) (i : Nat) : u32At (b :: bs) (i + 1) = u32At bs i := rfl

/-- A two-byte field written is read back. -/
@[simp] theorem u16At_le (v : Nat) (bs : List Byte) :
    u16At (BitVec.ofNat 8 v :: BitVec.ofNat 8 (v / 256) :: bs) 0 = BitVec.ofNat 16 v := by
  apply BitVec.eq_of_toNat_eq
  simp only [u16At, byteAt_cons_zero, byteAt_cons_succ, BitVec.toNat_ofNat]
  omega

/-- A four-byte field written is read back. -/
@[simp] theorem u32At_le (v : Nat) (bs : List Byte) :
    u32At (BitVec.ofNat 8 v :: BitVec.ofNat 8 (v / 256) :: BitVec.ofNat 8 (v / 256 / 256) ::
      BitVec.ofNat 8 (v / 256 / 256 / 256) :: bs) 0 = BitVec.ofNat 32 v := by
  apply BitVec.eq_of_toNat_eq
  simp only [u32At, u16At_cons_succ, u16At_le, BitVec.toNat_ofNat]
  omega

/-- A word written is read back, its low byte in the form `simp` gives it. -/
@[simp] theorem u16At_word (v : U16) (bs : List Byte) :
    u16At (BitVec.setWidth 8 v :: BitVec.ofNat 8 (v.toNat / 256) :: bs) 0 = v := by
  rw [← BitVec.ofNat_toNat, u16At_le, BitVec.ofNat_toNat, BitVec.setWidth_eq]

/-- A double word written is read back, its low byte in the form `simp` gives it. -/
@[simp] theorem u32At_word (v : U32) (bs : List Byte) :
    u32At (BitVec.setWidth 8 v :: BitVec.ofNat 8 (v.toNat / 256) :: BitVec.ofNat 8 (v.toNat / 256 / 256) ::
      BitVec.ofNat 8 (v.toNat / 256 / 256 / 256) :: bs) 0 = v := by
  rw [← BitVec.ofNat_toNat, u32At_le, BitVec.ofNat_toNat, BitVec.setWidth_eq]

/-- A byte behind other bytes. -/
theorem byteAt_append {xs : List Byte} {n : Nat} (hn : xs.length = n) (ys : List Byte) (i : Nat) :
    byteAt (xs ++ ys) (n + i) = byteAt ys i := by
  simp [byteAt, List.getD_eq_getElem?_getD, List.getElem?_append_right, hn]

/-- A two-byte field behind other bytes. -/
theorem u16At_append {xs : List Byte} {n : Nat} (hn : xs.length = n) (ys : List Byte) (i : Nat) :
    u16At (xs ++ ys) (n + i) = u16At ys i := by
  rw [u16At, Nat.add_assoc, byteAt_append hn, byteAt_append hn, u16At]

/-! ### Requests read back (O58) -/

/-- A parameter area begins with its bytes, and is 0 behind them. -/
@[simp] theorem byteAt_paramArea (bs : List Byte) {i : Nat} (hi : i < 32) : byteAt (paramArea bs) i = byteAt bs i := by
  simp only [byteAt, paramArea, List.getD_eq_getElem?_getD, List.getElem?_take_of_lt hi]
  rcases Nat.lt_or_ge i bs.length with h | h
  · rw [List.getElem?_append_left h]
  · rw [List.getElem?_append_right h, List.getElem?_replicate_of_lt (by omega), List.getElem?_eq_none h]
    rfl

@[simp] theorem u16At_paramArea (bs : List Byte) {i : Nat} (hi : i < 31) : u16At (paramArea bs) i = u16At bs i := by
  rw [u16At, byteAt_paramArea _ (by omega), byteAt_paramArea _ (by omega), u16At]

@[simp] theorem u32At_paramArea (bs : List Byte) {i : Nat} (hi : i < 29) : u32At (paramArea bs) i = u32At bs i := by
  rw [u32At, u16At_paramArea _ (by omega), u16At_paramArea _ (by omega), u32At]

/-- The three change flags of Amend Roll share a byte. -/
theorem changeFlags (a b c : Bool) :
    let f := (BitVec.ofNat 8 (flagNat a + 2 * flagNat b + 4 * flagNat c)).toNat
    bitSet f 0 = a ∧ bitSet f 1 = b ∧ bitSet f 2 = c := by
  cases a <;> cases b <;> cases c <;> decide

theorem decodeClassArgs_encode (a : ClassArgs) : decodeClassArgs (encodeCall (.setFibreClass a)).2.2 = a := by
  simp [encodeCall, decodeClassArgs, leBytes_two, leBytes_four]

theorem decodeRollArgs_encode (a : RollArgs) : decodeRollArgs (encodeCall (.registerRoll a)).2.2 = a := by
  simp [encodeCall, decodeRollArgs, leBytes_two, leBytes_four]

theorem decodeAmendArgs_encode (a : AmendArgs) : decodeAmendArgs (encodeCall (.amendRoll a)).2.2 = a := by
  obtain ⟨setLen, setCls, setWidth, _, _, _⟩ := a
  obtain ⟨h0, h1, h2⟩ := changeFlags setLen setCls setWidth
  simp only [encodeCall, decodeAmendArgs]
  simp [leBytes_two, leBytes_four, -BitVec.toNat_ofNat, h0, h1, h2]

theorem decodeOrderArgs_encode (a : OrderArgs) :
    decodeOrderArgs (encodeCall (.placeOrder a)).2.1 (encodeCall (.placeOrder a)).2.2 = a := by
  simp [encodeCall, decodeOrderArgs, leBytes_two]

theorem decodeZonesArgs_encode (a : ZonesArgs) : decodeZonesArgs (encodeCall (.setZones a)).2.2 = a := by
  simp [encodeCall, decodeZonesArgs, leBytes_two]

/-- 11_formats.md: the bytes that spell a request read back as that request. -/
theorem decodeCall_encodeCall (c : Call) : decodeCall (encodeCall c).1 (encodeCall c).2.1 (encodeCall c).2.2 = some c := by
  cases c
  case setFibreClass a => exact congrArg (fun x => some (Call.setFibreClass x)) (decodeClassArgs_encode a)
  case registerRoll a => exact congrArg (fun x => some (Call.registerRoll x)) (decodeRollArgs_encode a)
  case amendRoll a => exact congrArg (fun x => some (Call.amendRoll x)) (decodeAmendArgs_encode a)
  case placeOrder a => exact congrArg (fun x => some (Call.placeOrder x)) (decodeOrderArgs_encode a)
  case setZones a => exact congrArg (fun x => some (Call.setZones x)) (decodeZonesArgs_encode a)
  case setSpeed v =>
    have speed : u16At (paramArea (leBytes 2 v.toNat)) 0 = v := by simp [leBytes_two]
    exact congrArg (fun x => some (Call.setSpeed x)) speed
  all_goals rfl

/-! ### Pages read back (O58) -/

@[simp] theorem groupBytes_length (g : Group) : g.bytes.length = 8 := by simp [Group.bytes]

theorem flatMap_groupBytes_length (gs : List Group) : (gs.flatMap Group.bytes).length = 8 * gs.length := by
  simp [List.length_flatMap, Nat.mul_comm]

/-- R8: the ranges of a group's fields. -/
def Group.inRange (g : Group) : Prop :=
  1 ≤ g.count ∧ g.count ≤ 255 ∧ 20 ≤ g.face ∧ g.face ≤ 2000 ∧ -50 ≤ g.step ∧ g.step ≤ 50 ∧
    (if g.kind = .flat then g.depth = 0 else 20 ≤ g.depth ∧ g.depth ≤ 600)

theorem Group.inRange.depth_le {g : Group} (h : g.inRange) : g.depth ≤ 600 := by
  obtain ⟨_, _, _, _, _, _, hd⟩ := h
  split at hd <;> omega

/-- A group in range written is read back. -/
theorem parseGroup_bytes {g : Group} (h : g.inRange) (rest : List Byte) : parseGroup (g.bytes ++ rest) = some g := by
  have hdepth := h.depth_le
  obtain ⟨_, hcount, _, hface, hlo, hhi, _⟩ := h
  have kind : kindOfCode (b8 g.kind.code).toNat = some g.kind := by cases g.kind <;> rfl
  have step : (BitVec.ofInt 8 g.step).toInt = g.step := BitVec.toInt_ofInt_eq_self (by decide) (by omega) (by omega)
  have count : g.count % 256 = g.count := Nat.mod_eq_of_lt (by omega)
  have face : g.face % 65536 = g.face := Nat.mod_eq_of_lt (by omega)
  have depth : g.depth % 65536 = g.depth := Nat.mod_eq_of_lt (by omega)
  have code : byteAt (g.bytes ++ rest) 0 = b8 g.kind.code := rfl
  rw [parseGroup, code, kind]
  simp [Group.bytes, le, leBytes_two, signed8, step, b8, count, face, depth]

/-- A group in range has no fault. -/
theorem groupFault_bytes {g : Group} (h : g.inRange) (rest : List Byte) : groupFault (g.bytes ++ rest) = none := by
  rw [groupFault, parseGroup_bytes h]
  obtain ⟨hc1, hc2, hf1, hf2, hs1, hs2, hd⟩ := h
  simp only [hc1, hc2, hf1, hf2, hs1, hs2, hd, and_self, not_true_eq_false, if_false]

/-- Groups in range written one after another are read back, whatever index the first has. -/
theorem parseGroups_bytes {gs : List Group} (h : ∀ g ∈ gs, g.inRange) (i : Nat) :
    parseGroups i gs.length (gs.flatMap Group.bytes) = .ok gs := by
  induction gs generalizing i with
  | nil => rfl
  | cons g gs ih =>
    have hg := h g List.mem_cons_self
    have rest := ih (fun x hx => h x (List.mem_cons_of_mem _ hx)) (i + 1)
    rw [List.flatMap_cons, List.length_cons, parseGroups, groupFault_bytes hg, parseGroup_bytes hg,
      List.drop_left' (groupBytes_length g), rest]

/-- What a page writes between its name and its groups. -/
def Page.fields (p : Page) : List Byte :=
  [b8 p.base, b8 p.motif] ++ le 2 p.waist ++ le 2 p.hem ++ [b8 p.groups.length, 0]

theorem Page.fields_length (p : Page) : p.fields.length = 8 := rfl

theorem Page.bytes_eq (p : Page) : p.bytes = (p.name ++ p.fields) ++ p.groups.flatMap Group.bytes := by
  simp [Page.bytes, Page.fields]

/-- 11_formats.md, R14: the length of a page. -/
theorem pageBytes_length {p : Page} (hn : p.name.length = 8) : p.bytes.length = 16 + 8 * p.groups.length := by
  rw [Page.bytes_eq, List.length_append, List.length_append, hn, p.fields_length, flatMap_groupBytes_length]

/-- R14: a page in range written is read back. -/
theorem parsePage_bytes {p : Page} (hn : p.name.length = 8) (hb : p.base ≤ 11) (hw : p.waist ≤ 5000) (hh : p.hem ≤ 5000)
    (hm : 1 ≤ p.motif ∧ p.motif ≤ 64) (hg : ∀ g ∈ p.groups, g.inRange) : parsePage p.bytes p.groups.length = .ok p := by
  have head : p.bytes = p.name ++ (p.fields ++ p.groups.flatMap Group.bytes) := by rw [Page.bytes_eq, List.append_assoc]
  have base : (byteAt p.bytes 8).toNat = p.base := by
    rw [head, byteAt_append (i := 0) hn]
    exact Nat.mod_eq_of_lt (by omega)
  have motif : (byteAt p.bytes 9).toNat = p.motif := by
    rw [head, byteAt_append (i := 1) hn]
    exact Nat.mod_eq_of_lt (by omega)
  have waist : (u16At p.bytes 10).toNat = p.waist := by
    have field : u16At p.bytes 10 = BitVec.ofNat 16 p.waist := by
      rw [head, u16At_append (i := 2) hn]
      simp [Page.fields, le, leBytes_two]
    rw [field]
    exact Nat.mod_eq_of_lt (by omega)
  have hem : (u16At p.bytes 12).toNat = p.hem := by
    have field : u16At p.bytes 12 = BitVec.ofNat 16 p.hem := by
      rw [head, u16At_append (i := 4) hn]
      simp [Page.fields, le, leBytes_two]
    rw [field]
    exact Nat.mod_eq_of_lt (by omega)
  have name : p.bytes.take 8 = p.name := by rw [head, List.take_left' hn]
  have groups : p.bytes.drop 16 = p.groups.flatMap Group.bytes := by
    rw [Page.bytes_eq, List.drop_left' (by rw [List.length_append, hn, p.fields_length])]
  simp only [parsePage, base, motif, waist, hem, name, groups, parseGroups_bytes hg]
  simp only [Nat.not_lt.2 hb, Nat.not_lt.2 hw, Nat.not_lt.2 hh, hm, and_self, not_true_eq_false, if_false]

/-! ### The lengths of the records (O58) -/

@[simp] theorem cursorBytes_length (c : Cursor) : c.bytes.length = 4 := rfl

theorem panelRecord_length (s : State) (p : Panel) : (s.panelRecord p).length = 72 := by
  unfold State.panelRecord
  simp [apply_ite List.length]

/-- 11_formats.md: the length of each record. -/
theorem record_lengths (r : Roll) (o : Order) (place : Nat) (g : Segment) (p : Panel) (s : State) (z : Zone) (n : Nat)
    (now : Clock) (c : Cell) :
    r.bytes.length = 32 ∧ (o.bytes place).length = 32 ∧ g.bytes.length = 40 ∧ (s.panelRecord p).length = 72 ∧
      (z.bytes n now).length = 16 ∧ (c.bytes n).length = 20 ∧ s.headFields.flatten.length = 48 := by
  refine ⟨?_, ?_, ?_, panelRecord_length s p, ?_, ?_, ?_⟩
  · simp [Roll.bytes]
  · simp [Order.bytes]
  · simp [Segment.bytes]
  · simp [Zone.bytes]
  · simp [Cell.bytes]
  · simp [State.headFields]

/-- Settles O58: requests by their kinds, pages field by field and group by group, records by the lengths of their fields. -/
theorem requestsAndPagesReadBack : Obligations.RequestsAndPagesReadBack := by
  refine ⟨decodeCall_encodeCall, ?_, record_lengths⟩
  intro p hn hb hw hh hm1 hm2 _ hg
  have inRange : ∀ g ∈ p.groups, g.inRange := hg
  exact ⟨pageBytes_length hn, parsePage_bytes hn hb hw hh ⟨hm1, hm2⟩ inRange⟩

end Sys2Proof.Machine

/-! ### The end of a page fetch at its slot (O16) -/

namespace Sys2Proof.Machine

/-- R7: PAGE_FETCH_DONE of a buffer in use: the outcome of the page, the completion, and the retries. -/
theorem exec_pageFetchDone {e : Env} {buf : BufferId} {s : State} {f : Fetch} {x : Entry} {q : Req} {c : Call}
    (hf : (arrive e s).buffer buf = some f) (hx : (arrive e s).entry f.entry = some x) (hq : x.req = some (q, c))
    {t : State} {a : Answer} (ho : fetchOutcome f ((arrive e s).fetchPage q.data) (arrive e s) = (t, a)) :
    exec (.pageFetchDone e buf) s = .next (settle (retryFor (freesFetch f.slot) (conclude f.entry a (releaseFetch buf t)))) := by
  have done : fetchDone buf (arrive e s) = retryFor (freesFetch f.slot) (conclude f.entry a (releaseFetch buf t)) := by
    simp only [fetchDone, endFetch, hf, hx, hq, ho]
  exact congrArg (fun y => Host.Outcome.next (settle y)) done

/-- R12: the page written to the alternate page of a slot. -/
def alternateWritten (p : Page) (y : Slot) : Slot :=
  if y.live.getD .a = .a then { y with pageB := some p } else { y with pageA := some p }

/-- R12: with an order FORMING the flip is left pending, and else taken. -/
theorem amendedSlot_eq (y : Slot) (p : Page) : amendedSlot y p true = { alternateWritten p y with flip := true } ∧
    amendedSlot y p false = { alternateWritten p y with live := y.live.map Letter.other, flip := false } := by
  unfold amendedSlot alternateWritten
  rcases h : y.live.getD .a <;> simp [Slot.flipped]

/-- R11, R12: an Amend whose page is taken while its slot is not FREE. -/
theorem fetchOutcome_amend {f : Fetch} {p : Page} {s : State} (ha : f.amend = true) (hs : (s.slot f.slot).state ≠ .free) :
    (∀ a, amendFail p (s.queueSeq.filter (fun o => o.pattern == f.slot)) = some a → fetchOutcome f (.ok p) s = (s, a)) ∧
    (amendFail p (s.queueSeq.filter (fun o => o.pattern == f.slot)) = none → fetchOutcome f (.ok p) s =
      (s.mapSlot f.slot (fun y => amendedSlot y p (s.formingOf f.slot)),
        doneDetail (amendDetail (s.slot f.slot).flip (s.formingOf f.slot)))) := by
  refine ⟨fun a h => ?_, fun h => ?_⟩
  · simp only [fetchOutcome, ha, if_true, if_neg hs, h]
  · simp only [fetchOutcome, ha, if_true, if_neg hs, h]

/-- R12: the detail of an Amend by its two marks. -/
theorem amendDetail_eq (flip : Bool) : amendDetail flip true = (if flip then 1 else 0) + 4 ∧
    amendDetail flip false = (if flip then 1 else 0) + 2 := by
  cases flip <;> exact ⟨rfl, rfl⟩

/-! ### The steps of a fetch (O16) -/

/-- R7, steps 1 to 5. -/
theorem fetchPage_steps (d : DataArea) (s : State) :
    let total := dataTotal d
    (total < 16 → ∃ y, s.fetchPage d = .error (refusal .segmentList y)) ∧
    (16 ≤ total → s.load (dataAddrs d 16) = none → s.fetchPage d = .error (refusal .busFault Sense.none)) ∧
    (∀ hd, 16 ≤ total → s.load (dataAddrs d 16) = some hd →
      let g := (byteAt hd 0x0E).toNat
      (g = 0 ∨ 32 < g → ∃ y, s.fetchPage d = .error (refusal .badParam y)) ∧
      (1 ≤ g → g ≤ 32 → total ≠ 16 + 8 * g → s.fetchPage d =
        .error (refusal .segmentList (senseField lenField [natVal total, natVal (16 + 8 * g)]))) ∧
      (1 ≤ g → g ≤ 32 → total = 16 + 8 * g → s.load (dataAddrs d (16 + 8 * g)) = none →
        s.fetchPage d = .error (refusal .busFault Sense.none)) ∧
      (∀ bs, 1 ≤ g → g ≤ 32 → total = 16 + 8 * g → s.load (dataAddrs d (16 + 8 * g)) = some bs →
        s.fetchPage d = validatePage bs g)) := by
  intro total
  refine ⟨fun h => ⟨_, if_pos h⟩, fun h hl => ?_, ?_⟩
  · rw [State.fetchPage, if_neg (Nat.not_lt.2 h), hl]
  · intro hd h hl g
    rw [State.fetchPage, if_neg (Nat.not_lt.2 h), hl]
    refine ⟨fun hg => ⟨_, if_pos (by omega)⟩, fun h1 h2 ht => ?_, fun h1 h2 ht hb => ?_, fun bs h1 h2 ht hb => ?_⟩
    · exact (if_neg (not_not.2 ⟨h1, h2⟩)).trans (if_pos ht)
    · refine (if_neg (not_not.2 ⟨h1, h2⟩)).trans ((if_neg (not_not.2 ht)).trans ?_)
      rw [hb]
    · refine (if_neg (not_not.2 ⟨h1, h2⟩)).trans ((if_neg (not_not.2 ht)).trans ?_)
      rw [hb]

/-! ### The range checks of a group entry (O16) -/

@[simp] theorem byteAt_drop (bs : List Byte) (n i : Nat) : byteAt (bs.drop n) i = byteAt bs (n + i) := by
  simp [byteAt, List.getD_eq_getElem?_getD]

@[simp] theorem u16At_drop (bs : List Byte) (n i : Nat) : u16At (bs.drop n) i = u16At bs (n + i) := by
  simp [u16At, Nat.add_assoc]

/-- The kind that a code from 0 to 4 names. -/
def kindOfSmall (code : Nat) : FoldKind := [FoldKind.flat, .knifeLeft, .knifeRight, .box, .invertedBox].getD code .flat

theorem kindOfCode_small {code : Nat} (h : code ≤ 4) : kindOfCode code = some (kindOfSmall code) := by
  interval_cases code <;> rfl

theorem kindOfCode_large {code : Nat} (h : 4 < code) : kindOfCode code = none := by
  obtain ⟨n, rfl⟩ := Nat.exists_eq_add_of_le' h
  rfl

theorem kindOfSmall_flat {code : Nat} (h : code ≤ 4) : kindOfSmall code = .flat ↔ code = 0 := by
  interval_cases code <;> decide

/-- The group that the entry at the front of a byte list spells. -/
def entryGroup (bs : List Byte) : Group :=
  ⟨kindOfSmall (byteAt bs 0).toNat, (byteAt bs 1).toNat, (u16At bs 2).toNat, (u16At bs 4).toNat, (byteAt bs 6).toInt⟩

theorem parseGroup_small {bs : List Byte} (h : (byteAt bs 0).toNat ≤ 4) : parseGroup bs = some (entryGroup bs) := by
  rw [parseGroup, kindOfCode_small h]
  rfl

/-- R8, step 4: the depths a group of a code may have. -/
abbrev depthAllowed (code depth : Nat) : Prop := if code = 0 then depth = 0 else 20 ≤ depth ∧ depth ≤ 600

/-- R8, step 4: an entry whose fields are all in range. -/
def entryOk (bs : List Byte) : Prop :=
  (byteAt bs 0).toNat ≤ 4 ∧ 1 ≤ (byteAt bs 1).toNat ∧ 20 ≤ (u16At bs 2).toNat ∧ (u16At bs 2).toNat ≤ 2000 ∧
    depthAllowed (byteAt bs 0).toNat (u16At bs 4).toNat ∧ -50 ≤ (byteAt bs 6).toInt ∧ (byteAt bs 6).toInt ≤ 50

/-- R8, step 4: the depths that the group of an entry may have, by its code. -/
theorem depthAllowed_entry {bs : List Byte} (h : (byteAt bs 0).toNat ≤ 4) :
    (if (entryGroup bs).kind = .flat then (entryGroup bs).depth = 0
      else 20 ≤ (entryGroup bs).depth ∧ (entryGroup bs).depth ≤ 600) ↔
    depthAllowed (byteAt bs 0).toNat (u16At bs 4).toNat := by
  simp only [entryGroup, kindOfSmall_flat h, depthAllowed]

/-- R8, step 4: an entry whose code names a kind: the first field out of range. -/
theorem groupFault_small {bs : List Byte} (h : (byteAt bs 0).toNat ≤ 4) : groupFault bs =
    if ¬ (1 ≤ (byteAt bs 1).toNat ∧ (byteAt bs 1).toNat ≤ 255) then some (1, natVal (byteAt bs 1).toNat)
    else if ¬ (20 ≤ (u16At bs 2).toNat ∧ (u16At bs 2).toNat ≤ 2000) then some (2, natVal (u16At bs 2).toNat)
    else if ¬ (if (entryGroup bs).kind = .flat then (entryGroup bs).depth = 0
      else 20 ≤ (entryGroup bs).depth ∧ (entryGroup bs).depth ≤ 600) then some (4, natVal (u16At bs 4).toNat)
    else if ¬ (-50 ≤ (byteAt bs 6).toInt ∧ (byteAt bs 6).toInt ≤ 50) then some (6, (byteAt bs 6).toInt)
    else none := by
  rw [groupFault, parseGroup_small h]
  rfl

/-- R8, step 4: the first field out of range of an entry, and the value found. -/
theorem groupFault_cases (bs : List Byte) :
    (4 < (byteAt bs 0).toNat → groupFault bs = some (0, natVal (byteAt bs 0).toNat)) ∧
    ((byteAt bs 0).toNat ≤ 4 → (byteAt bs 1).toNat = 0 → groupFault bs = some (1, natVal (byteAt bs 1).toNat)) ∧
    ((byteAt bs 0).toNat ≤ 4 → 1 ≤ (byteAt bs 1).toNat → ¬ (20 ≤ (u16At bs 2).toNat ∧ (u16At bs 2).toNat ≤ 2000) →
      groupFault bs = some (2, natVal (u16At bs 2).toNat)) ∧
    ((byteAt bs 0).toNat ≤ 4 → 1 ≤ (byteAt bs 1).toNat → 20 ≤ (u16At bs 2).toNat → (u16At bs 2).toNat ≤ 2000 →
      ¬ depthAllowed (byteAt bs 0).toNat (u16At bs 4).toNat → groupFault bs = some (4, natVal (u16At bs 4).toNat)) ∧
    ((byteAt bs 0).toNat ≤ 4 → 1 ≤ (byteAt bs 1).toNat → 20 ≤ (u16At bs 2).toNat → (u16At bs 2).toNat ≤ 2000 →
      depthAllowed (byteAt bs 0).toNat (u16At bs 4).toNat → ¬ (-50 ≤ (byteAt bs 6).toInt ∧ (byteAt bs 6).toInt ≤ 50) →
      groupFault bs = some (6, (byteAt bs 6).toInt)) ∧
    (entryOk bs → groupFault bs = none) := by
  have byte : (byteAt bs 1).toNat ≤ 255 := Nat.le_of_lt_succ (byteAt bs 1).isLt
  refine ⟨fun h => ?_, fun h hc => ?_, fun h hc hf => ?_, fun h hc hf1 hf2 hd => ?_, fun h hc hf1 hf2 hd hs => ?_,
    fun ⟨h, hc, hf1, hf2, hd, hs⟩ => ?_⟩
  · rw [groupFault, parseGroup, kindOfCode_large h]
    rfl
  · rw [groupFault_small h, if_pos (by omega)]
  · rw [groupFault_small h, if_neg (not_not.2 ⟨hc, byte⟩), if_pos hf]
  · rw [groupFault_small h, if_neg (not_not.2 ⟨hc, byte⟩), if_neg (not_not.2 ⟨hf1, hf2⟩),
      if_pos (mt (depthAllowed_entry h).1 hd)]
  · rw [groupFault_small h, if_neg (not_not.2 ⟨hc, byte⟩), if_neg (not_not.2 ⟨hf1, hf2⟩),
      if_neg (not_not.2 ((depthAllowed_entry h).2 hd)), if_pos hs]
  · rw [groupFault_small h, if_neg (not_not.2 ⟨hc, byte⟩), if_neg (not_not.2 ⟨hf1, hf2⟩),
      if_neg (not_not.2 ((depthAllowed_entry h).2 hd)), if_neg (not_not.2 hs)]

/-! ### The range checks of a page (O16) -/

/-- The bytes of the group entry of an index from 0 of a page. -/
def entryBytes (bs : List Byte) (i : Nat) : List Byte := bs.drop (16 + 8 * i)

/-- R8: the first entry with a fault, the entries before it being without one, is named by its index from 1. -/
theorem parseGroups_fault {n : Nat} {bs : List Byte} {i off : Nat} {v : Int} (hi : i < n)
    (before : ∀ j, j < i → entryOk (bs.drop (8 * j))) (h : groupFault (bs.drop (8 * i)) = some (off, v)) (k : Nat) :
    parseGroups k n bs = .error (badField (fieldId 2 off) [natVal (k + i), v]) := by
  induction n generalizing k bs i with
  | zero => omega
  | succ n ih =>
    rw [parseGroups]
    cases i with
    | zero =>
      rw [Nat.mul_zero, List.drop_zero] at h
      rw [h]
      rfl
    | succ i =>
      have first : entryOk bs := before 0 (Nat.succ_pos i)
      obtain ⟨_, _, _, _, _, noFault⟩ := groupFault_cases bs
      have rest : parseGroups (k + 1) n (bs.drop 8) = .error (badField (fieldId 2 off) [natVal (k + 1 + i), v]) := by
        refine ih (by omega) (fun j hj => ?_) ?_ (k + 1)
        · rw [List.drop_drop, show 8 + 8 * j = 8 * (j + 1) by omega]
          exact before (j + 1) (by omega)
        · rw [List.drop_drop, show 8 + 8 * i = 8 * (i + 1) by omega]
          exact h
      rw [noFault first, parseGroup_small first.1, rest, show k + 1 + i = k + (i + 1) by omega]

/-- R8: entries without a fault are read as they are spelt. -/
theorem parseGroups_ok {n : Nat} {bs : List Byte} (h : ∀ j, j < n → entryOk (bs.drop (8 * j))) (k : Nat) :
    parseGroups k n bs = .ok ((List.range n).map (fun j => entryGroup (bs.drop (8 * j)))) := by
  induction n generalizing k bs with
  | zero => rfl
  | succ n ih =>
    have first : entryOk bs := h 0 (Nat.succ_pos n)
    obtain ⟨_, _, _, _, _, noFault⟩ := groupFault_cases bs
    have shift : ∀ j, (bs.drop 8).drop (8 * j) = bs.drop (8 * (j + 1)) := fun j => by
      rw [List.drop_drop, show 8 + 8 * j = 8 * (j + 1) by omega]
    have rest := ih (bs := bs.drop 8) (fun j hj => by rw [shift]; exact h (j + 1) (by omega)) (k + 1)
    rw [parseGroups, noFault first, parseGroup_small first.1, rest, List.range_succ_eq_map, List.map_cons, List.map_map]
    simp only [shift, Function.comp_def, Nat.mul_zero, List.drop_zero]

/-- The page that the bytes of an assembled page of `g` groups spell. -/
def spelledPage (bs : List Byte) (g : Nat) : Page :=
  ⟨bs.take 8, (byteAt bs 8).toNat, (u16At bs 10).toNat, (u16At bs 12).toNat, (byteAt bs 9).toNat,
    (List.range g).map (fun i => entryGroup (entryBytes bs i))⟩

/-- R8, steps 1 to 3: the fields before the groups that are in range. -/
def flatsOk (bs : List Byte) : Prop := (byteAt bs 8).toNat ≤ 11 ∧ (u16At bs 10).toNat ≤ 5000 ∧ (u16At bs 12).toNat ≤ 5000

/-- R8: with the fields before the groups in range the groups decide. -/
theorem parsePage_groups {bs : List Byte} {g : Nat} (hf : flatsOk bs) (hm : 1 ≤ (byteAt bs 9).toNat ∧ (byteAt bs 9).toNat ≤ 64) :
    (∀ a, parseGroups 1 g (bs.drop 16) = .error a → parsePage bs g = .error a) ∧
    ((∀ i, i < g → entryOk (entryBytes bs i)) → parsePage bs g = .ok (spelledPage bs g)) := by
  obtain ⟨hb, hw, hh⟩ := hf
  have shift : ∀ i, (bs.drop 16).drop (8 * i) = entryBytes bs i := fun i => List.drop_drop
  constructor
  · intro a h
    rw [parsePage, if_neg (Nat.not_lt.2 hb), if_neg (Nat.not_lt.2 hw), if_neg (Nat.not_lt.2 hh), if_neg (not_not.2 hm), h]
  · intro h
    have groups := parseGroups_ok (n := g) (bs := bs.drop 16) (fun i hi => by rw [shift]; exact h i hi) 1
    simp only [shift] at groups
    rw [spelledPage, parsePage, if_neg (Nat.not_lt.2 hb), if_neg (Nat.not_lt.2 hw), if_neg (Nat.not_lt.2 hh),
      if_neg (not_not.2 hm), groups]

/-- R8: the first group out of range. -/
theorem parsePage_fault {bs : List Byte} {g i off : Nat} {v : Int} (hf : flatsOk bs)
    (hm : 1 ≤ (byteAt bs 9).toNat ∧ (byteAt bs 9).toNat ≤ 64) (hi : i < g) (before : ∀ j, j < i → entryOk (entryBytes bs j))
    (h : groupFault (entryBytes bs i) = some (off, v)) :
    validatePage bs g = .error (refusal .badParam (senseField (fieldId 2 off) [natVal (i + 1), v])) := by
  have shift : ∀ i, (bs.drop 16).drop (8 * i) = entryBytes bs i := fun i => List.drop_drop
  have fault := parseGroups_fault (bs := bs.drop 16) hi (fun j hj => by rw [shift]; exact before j hj)
    (by rw [shift]; exact h) 1
  rw [validatePage, (parsePage_groups hf hm).1 _ fault, Nat.add_comm 1 i]
  rfl

/-! ### The shape checks of a page (O16, O17) -/

/-- R27: the limits. -/
theorem measured_ok_iff (m : Measured) : m.ok = true ↔ 1000 ≤ m.out ∧ m.out ≤ 40000 ∧ m.t ≤ 120000 := by
  simp only [Measured.ok, Measured.broken, beq_iff_eq]
  constructor
  · intro h
    split_ifs at h <;> omega
  · rintro ⟨h1, h2, h3⟩
    rw [if_neg (Nat.not_lt.2 h1), if_neg (Nat.not_lt.2 h2), if_neg (Nat.not_lt.2 h3)]

/-- R9, R25: at k = 0 a running total stands as it is. -/
theorem scaled_zero (x : Nat) : scaled 0 x = x := by
  unfold scaled
  omega

/-- R9: a page whose fields are in range is taken, or refused for its grades or its limits at the base size. -/
theorem validatePage_shape {bs : List Byte} {g : Nat} {p : Page} (h : parsePage bs g = .ok p) :
    (∀ f, p.gradeCheck p.base = some f → ∃ y, validatePage bs g = .error (refusal .gradeRange y) ∧
      y.vals.take 5 = [natVal f.index, natVal f.group.kind.code, natVal f.group.face, natVal f.group.depth, natVal p.base]) ∧
    (p.gradeCheck p.base = none → 1000 ≤ p.totalW p.base → p.totalW p.base ≤ 40000 → p.totalN p.base ≤ 120000 →
      validatePage bs g = .ok p) ∧
    (p.gradeCheck p.base = none →
      ¬ (1000 ≤ p.totalW p.base ∧ p.totalW p.base ≤ 40000 ∧ p.totalN p.base ≤ 120000) →
      ∃ y, validatePage bs g = .error (refusal .fit y) ∧
        y.vals.take 2 = [natVal (p.totalN p.base), natVal (p.totalW p.base)]) := by
  have measured : p.measure p.base 0 =
      ⟨0, p.totalN p.base, p.totalW p.base, p.totalN p.base, p.totalW p.base⟩ := by
    simp only [Page.measure, scaled_zero]
  have limits := measured_ok_iff (p.measure p.base 0)
  rw [measured] at limits
  have shape : ∀ r, pageShape p = r → validatePage bs g = r.elim (.ok p) .error := by
    intro r hr
    simp only [validatePage, h, hr]
    cases r <;> rfl
  refine ⟨fun f hf => ⟨_, shape (some _) (by rw [pageShape, hf]), rfl⟩, fun hn h1 h2 h3 => shape none ?_,
    fun hn hl => ⟨fitSense (p.measure p.base 0), shape (some _) ?_, ?_⟩⟩
  · rw [pageShape, hn, measured]
    exact if_pos (limits.2 ⟨h1, h2, h3⟩)
  · rw [pageShape, hn, measured]
    exact if_neg (mt limits.1 hl)
  · rw [measured]
    rfl

/-! ### Amends against the orders present, and the queue sequence (O16) -/

/-- R11: an amended page passes the orders whose sizes it fits, and fails at the first that it does not. -/
theorem amendFail_append (p : Page) (before after : List Order) (o : Order) (hb : ∀ y ∈ before, p.gradeCheck y.size = none) :
    amendFail p before = none ∧
    (∀ f, p.gradeCheck o.size = some f → ∃ y, amendFail p (before ++ o :: after) = some (refusal .gradeRange y) ∧
      y.key = some o.tag ∧ y.vals.take 4 = [natVal o.size, natVal f.index, f.face, f.bound]) := by
  induction before with
  | nil =>
    refine ⟨rfl, fun f hf => ?_⟩
    rw [List.nil_append, amendFail, hf]
    exact ⟨_, rfl, rfl, rfl⟩
  | cons y ys ih =>
    have first := hb y List.mem_cons_self
    have rest := ih (fun z hz => hb z (List.mem_cons_of_mem _ hz))
    simpa only [List.cons_append, amendFail, first] using rest

/-- R12: an order of the pattern is FORMING. -/
theorem formingOf_iff (s : State) (n : Nat) : s.formingOf n = true ↔ ∃ o ∈ s.orders, o.pattern = n ∧ o.state = .forming := by
  simp [State.formingOf]

/-- R50: the FORMING orders, then the RUSH orders of the others, then the NORMAL ones. -/
theorem queueSeq_eq (s : State) : s.queueSeq = s.orders.filter (fun o => o.state == .forming) ++
    s.orders.filter (fun o => o.state != .forming && o.cls == .rush) ++
    s.orders.filter (fun o => o.state != .forming && o.cls == .normal) := by
  simp only [State.queueSeq, List.filter_filter, Bool.and_comm]

/-- Settles O16: the outcome at the slot, the steps of the reading, the range checks entry by entry, the shape checks, and the orders. -/
theorem pageFetchEnds : Obligations.PageFetchEnds := by
  refine ⟨?_, fetchPage_steps, ?_, amendFail_append, fun s n => ⟨formingOf_iff s n, queueSeq_eq s⟩⟩
  · intro e buf s f x q c u ends hf hx hq
    have ended : ∀ r t a, u.fetchPage q.data = r → fetchOutcome f r u = (t, a) →
        exec (.pageFetchDone e buf) s = .next (settle (ends a t)) := by
      rintro r t a rfl ho
      exact exec_pageFetchDone hf hx hq ho
    refine ⟨fun a ha => ended _ _ _ ha rfl, fun p hp hd => ended _ _ _ hp ?_, fun p a hp hd hs ha => ?_, ?_⟩
    · simp only [fetchOutcome, hd]
      rfl
    · exact ended _ _ _ hp ((fetchOutcome_amend hd hs).1 a ha)
    · intro p hp hd hs ha superseded write
      have taken := (fetchOutcome_amend hd hs).2 ha
      refine ⟨fun hform => ended _ _ _ hp ?_, fun hform => ended _ _ _ hp ?_⟩
      · rw [taken, hform, (amendDetail_eq _).1]
        simp only [amendedSlot_eq]
        rfl
      · rw [taken, hform, (amendDetail_eq _).2]
        simp only [amendedSlot_eq]
        rfl
  · intro bs g base motif waist hem code count face depth step kind refused flats depthOk ok p
    have before : ∀ {i}, (∀ j, j < i → ok j) → ∀ j, j < i → entryOk (entryBytes bs j) := fun h j hj => by
      simp only [entryOk, entryBytes, byteAt_drop, u16At_drop]
      exact h j hj
    have spelled : p = spelledPage bs g := by
      simp only [p, spelledPage, entryGroup, entryBytes, byteAt_drop, u16At_drop]
      rfl
    have outOfRange : ∀ {a}, parsePage bs g = .error a → validatePage bs g = .error a := fun h => by
      rw [validatePage, h]
    refine ⟨fun h => ?_, fun h1 h => ?_, fun h1 h2 h => ?_, fun hf hm => ?_,
      fun hf hm1 hm2 => ⟨fun i hi hb => ?_, fun hok => ?_⟩⟩
    · exact outOfRange (if_pos h)
    · exact outOfRange ((if_neg (Nat.not_lt.2 h1)).trans (if_pos h))
    · exact outOfRange ((if_neg (Nat.not_lt.2 h1)).trans ((if_neg (Nat.not_lt.2 h2)).trans (if_pos h)))
    · obtain ⟨hb, hw, hh⟩ := hf
      exact outOfRange ((if_neg (Nat.not_lt.2 hb)).trans ((if_neg (Nat.not_lt.2 hw)).trans ((if_neg (Nat.not_lt.2 hh)).trans
        (if_pos (by omega)))))
    · obtain ⟨kindBad, countBad, faceBad, depthBad, stepBad, _⟩ := groupFault_cases (entryBytes bs i)
      simp only [entryBytes, byteAt_drop, u16At_drop] at kindBad countBad faceBad depthBad stepBad
      have fault : ∀ off v, groupFault (entryBytes bs i) = some (off, v) → refused off [natVal (i + 1), v] :=
        fun off v h => parsePage_fault hf ⟨hm1, hm2⟩ hi (before hb) h
      exact ⟨fun h => fault _ _ (kindBad h), fun h hc => fault _ _ (countBad h hc), fun h hc hx => fault _ _ (faceBad h hc hx),
        fun h hc hx1 hx2 hd => fault _ _ (depthBad h hc hx1 hx2 hd),
        fun h hc hx1 hx2 hd hs => fault _ _ (stepBad h hc hx1 hx2 hd hs)⟩
    · have parsed : parsePage bs g = .ok p := spelled ▸ (parsePage_groups hf ⟨hm1, hm2⟩).2 (before hok)
      obtain ⟨grade, fits, unfit⟩ := validatePage_shape parsed
      exact ⟨grade, fun hn => ⟨fits hn, unfit hn⟩⟩

end Sys2Proof.Machine

/-! ### Grades and totals of a page (O17) -/

namespace Sys2Proof.Machine

/-- R20: a group whose graded face keeps both bounds of its kind. -/
def Group.faceValid (g : Group) (base size : Nat) : Prop := g.leastFace ≤ g.graded base size ∧ g.graded base size ≤ 2000

theorem brokenBound_valid {g : Group} {base size : Nat} (h : g.faceValid base size) :
    g.brokenBound (g.graded base size) = none := by
  obtain ⟨h1, h2⟩ := h
  rw [Group.brokenBound, if_neg (by omega), if_neg (by omega)]

theorem brokenBound_invalid {g : Group} {base size : Nat} (h : ¬ g.faceValid base size) :
    g.brokenBound (g.graded base size) = some (if g.graded base size < g.leastFace then g.leastFace else 2000) := by
  rw [Group.brokenBound]
  split
  · rfl
  · rw [if_pos (by unfold Group.faceValid at h; omega)]

/-- R20: the grade check passes valid groups, and fails at the first that is not valid. -/
theorem gradeGroups_append (base size : Nat) (before after : List Group) (hb : ∀ h ∈ before, h.faceValid base size) (i : Nat) :
    gradeGroups base size i (before ++ after) = gradeGroups base size (i + before.length) after := by
  induction before generalizing i with
  | nil => rfl
  | cons g gs ih =>
    rw [List.cons_append, gradeGroups, brokenBound_valid (hb g List.mem_cons_self)]
    refine (ih (fun h hh => hb h (List.mem_cons_of_mem _ hh)) (i + 1)).trans ?_
    rw [List.length_cons, Nat.add_assoc, Nat.add_comm 1]

/-- R20: a page whose groups are all valid passes. -/
theorem gradeCheck_valid {p : Page} {size : Nat} (h : ∀ g ∈ p.groups, g.faceValid p.base size) : p.gradeCheck size = none := by
  have := gradeGroups_append p.base size p.groups [] h 1
  rwa [List.append_nil] at this

/-- R20: the first group that is not valid is named. -/
theorem gradeCheck_invalid {p : Page} {size : Nat} {before after : List Group} {g : Group} (hp : p.groups = before ++ g :: after)
    (hb : ∀ h ∈ before, h.faceValid p.base size) (hg : ¬ g.faceValid p.base size) : p.gradeCheck size =
      some ⟨before.length + 1, g, g.graded p.base size,
        if g.graded p.base size < g.leastFace then g.leastFace else 2000⟩ := by
  rw [Page.gradeCheck, hp, gradeGroups_append _ _ _ _ hb, gradeGroups, brokenBound_invalid hg, Nat.add_comm 1]

/-- The graded face of a group as a length. -/
def Page.faceOf (p : Page) (size : Nat) (g : Group) : Nat := (g.graded p.base size).toNat

/-- The sum over groups of count times a figure, the faces being those of the groups. -/
theorem sumGroups_map (fig : Group → Nat → Nat) (face : Group → Nat) (gs : List Group) :
    sumGroups fig gs (gs.map face) = (gs.map (fun g => g.count * fig g (face g))).sum := by
  induction gs with
  | nil => rfl
  | cons g gs ih => rw [List.map_cons, sumGroups, ih, List.map_cons, List.sum_cons]

/-- R24: N_J as a sum over the groups. -/
theorem totalN_eq (p : Page) (size : Nat) : p.totalN size =
    p.waist + p.hem + p.motif * (p.groups.map (fun g => g.count * g.consumption (p.faceOf size g))).sum := by
  rw [Page.totalN, Page.faces, sumGroups_map]
  rfl

/-- R24: W_J as a sum over the groups. -/
theorem totalW_eq (p : Page) (size : Nat) : p.totalW size =
    p.waist + p.hem + p.motif * (p.groups.map (fun g => g.count * p.faceOf size g)).sum := by
  rw [Page.totalW, Page.faces, sumGroups_map]
  rfl

/-- R21: the sizes of the span, rising. -/
theorem span_sizes (p : Page) : (∀ n, n ∈ p.span ↔ n ≤ 11 ∧ p.gradeCheck n = none) ∧ p.span.Pairwise (fun i j => i < j) := by
  refine ⟨fun n => ?_, List.pairwise_lt_range.filter _⟩
  rw [Page.span, List.mem_filter, List.mem_range, Option.isNone_iff_eq_none, Nat.lt_succ_iff]

/-! ### The walk of the pleat cursor (O17) -/

/-- R65: the cursor goes from one place to another in a number of draws, none of them from the end, and the units drawn have these nominal
consumptions and outputs in all. -/
inductive Page.Walk (p : Page) (faces : List Nat) : Cursor → Cursor → Nat → Nat → Nat → Prop
  | refl (c : Cursor) : Page.Walk p faces c c 0 0 0
  | step {c d : Cursor} {n consumed out : Nat} (hc : c.part ≠ .atEnd) (rest : Page.Walk p faces (p.nextCursor c) d n consumed out) :
      Page.Walk p faces c d (n + 1) ((p.unitAt faces c).1 + consumed) ((p.unitAt faces c).2.1 + out)

namespace Page.Walk

variable {p : Page} {faces : List Nat} {c d : Cursor} {n n' consumed consumed' out out' : Nat}

theorem of_eq (w : p.Walk faces c d n consumed out) (hn : n = n') (hc : consumed = consumed') (ho : out = out') :
    p.Walk faces c d n' consumed' out' := by subst hn hc ho; exact w

theorem trans {e : Cursor} (w : p.Walk faces c d n consumed out) (w' : p.Walk faces d e n' consumed' out') :
    p.Walk faces c e (n + n') (consumed + consumed') (out + out') := by
  induction w with
  | refl => exact w'.of_eq (Nat.zero_add _).symm (Nat.zero_add _).symm (Nat.zero_add _).symm
  | step hc _ ih => exact (step hc (ih w')).of_eq (by omega) (by omega) (by omega)

/-- One draw. -/
theorem one (hc : c.part ≠ .atEnd) : p.Walk faces c (p.nextCursor c) 1 (p.unitAt faces c).1 (p.unitAt faces c).2.1 :=
  step hc (refl _)

end Page.Walk

/-- R65: where the cursor stands after the last pleat of a pass. -/
def Page.afterPass (p : Page) (pass : Nat) : Cursor :=
  if pass < p.motif then ⟨.motif, pass + 1, 1, 1⟩ else if p.hem = 0 then ⟨.atEnd, 0, 0, 0⟩ else ⟨.hem, 0, 0, 0⟩

/-- R65: where the cursor stands after the last pleat of the group of an index from 0. -/
def Page.afterGroup (p : Page) (pass i : Nat) : Cursor :=
  if i + 1 < p.groups.length then ⟨.motif, pass, i + 2, 1⟩ else p.afterPass pass

/-- The pleats of a list of groups. -/
def pleatCount (gs : List Group) : Nat := (gs.map Group.count).sum

/-- R22: the nominal consumption of a list of groups of a page. -/
def Page.consumedBy (p : Page) (size : Nat) (gs : List Group) : Nat :=
  (gs.map (fun g => g.count * g.consumption (p.faceOf size g))).sum

/-- R22: the nominal output of a list of groups of a page. -/
def Page.outputOf (p : Page) (size : Nat) (gs : List Group) : Nat := (gs.map (fun g => g.count * p.faceOf size g)).sum

section Walks

variable {p : Page} {size : Nat}

/-- R22, R65: a pleat of a group drawn. -/
theorem pleat_walk {i : Nat} {g : Group} (hg : p.groups[i]? = some g) (pass j : Nat) :
    p.Walk (p.faces size) ⟨.motif, pass, i + 1, j⟩
      (if j < g.count then ⟨.motif, pass, i + 1, j + 1⟩ else p.afterGroup pass i)
      1 (g.consumption (p.faceOf size g)) (p.faceOf size g) := by
  have group : p.group (i + 1) = some g := hg
  have face : (p.faces size).getD i 0 = p.faceOf size g := by
    simp [Page.faces, List.getD_eq_getElem?_getD, hg, Page.faceOf]
  have walked := Page.Walk.one (p := p) (faces := p.faces size) (c := ⟨.motif, pass, i + 1, j⟩) nofun
  simp only [Page.unitAt, Page.nextCursor, group, Nat.add_sub_cancel, face, Option.map_some, Option.getD_some] at walked
  exact walked

/-- R65: the last pleats of a group. -/
theorem pleats_walk {i : Nat} {g : Group} (hg : p.groups[i]? = some g) (pass : Nat) {m : Nat} (hm : m < g.count) :
    p.Walk (p.faces size) ⟨.motif, pass, i + 1, g.count - m⟩ (p.afterGroup pass i)
      (m + 1) ((m + 1) * g.consumption (p.faceOf size g)) ((m + 1) * p.faceOf size g) := by
  have pleat := pleat_walk (size := size) hg pass (g.count - m)
  induction m with
  | zero =>
    rw [if_neg (by omega)] at pleat
    exact pleat.of_eq rfl (by omega) (by omega)
  | succ m ih =>
    rw [if_pos (by omega), show g.count - (m + 1) + 1 = g.count - m by omega] at pleat
    exact (pleat.trans (ih (by omega) (pleat_walk hg _ _))).of_eq (by omega) (by ring) (by ring)

/-- R65: the groups of a pass from one on. -/
theorem groups_walk (hc : ∀ g ∈ p.groups, 1 ≤ g.count) (pass : Nat) {gs : List Group} {i : Nat} (hi : p.groups.drop i = gs)
    (hne : gs ≠ []) :
    p.Walk (p.faces size) ⟨.motif, pass, i + 1, 1⟩ (p.afterPass pass) (pleatCount gs) (p.consumedBy size gs)
      (p.outputOf size gs) := by
  induction gs generalizing i with
  | nil => exact absurd rfl hne
  | cons g gs ih =>
    have hg : p.groups[i]? = some g := by rw [← List.head?_drop, hi, List.head?_cons]
    have count := hc g (List.mem_of_getElem? hg)
    have first := pleats_walk (size := size) hg pass (m := g.count - 1) (by omega)
    rw [Nat.sub_add_cancel count, Nat.sub_sub_self count] at first
    have tail : p.groups.drop (i + 1) = gs := by rw [← List.tail_drop, hi, List.tail_cons]
    have len : p.groups.length - (i + 1) = gs.length := by rw [← tail, List.length_drop]
    by_cases hgs : gs = []
    · subst hgs
      have last : p.groups.length ≤ i + 1 := Nat.le_of_sub_eq_zero len
      rw [Page.afterGroup, if_neg (Nat.not_lt.2 last)] at first
      exact first.of_eq (by simp [pleatCount]) (by simp [Page.consumedBy]) (by simp [Page.outputOf])
    · have more : 0 < gs.length := List.length_pos_of_ne_nil hgs
      rw [Page.afterGroup, if_pos (by omega)] at first
      exact (first.trans (ih tail hgs)).of_eq (by simp [pleatCount]) (by simp [Page.consumedBy]) (by simp [Page.outputOf])

/-- R65: the last passes of the motif. -/
theorem passes_walk (hg : p.groups ≠ []) (hc : ∀ g ∈ p.groups, 1 ≤ g.count) {m : Nat} (hm : m < p.motif) :
    p.Walk (p.faces size) ⟨.motif, p.motif - m, 1, 1⟩ (p.afterPass p.motif) ((m + 1) * pleatCount p.groups)
      ((m + 1) * p.consumedBy size p.groups) ((m + 1) * p.outputOf size p.groups) := by
  have pass := groups_walk (size := size) hc (p.motif - m) (i := 0) List.drop_zero hg
  induction m with
  | zero => exact pass.of_eq (by omega) (by omega) (by omega)
  | succ m ih =>
    rw [Page.afterPass, if_pos (by omega), show p.motif - (m + 1) + 1 = p.motif - m by omega] at pass
    exact (pass.trans (ih (by omega) (groups_walk hc _ List.drop_zero hg))).of_eq (by ring) (by ring) (by ring)

/-- R23, R65: the waist, where the page has one. -/
theorem waist_walk (faces : List Nat) : p.Walk faces p.firstCursor Cursor.motifStart (present p.waist) p.waist p.waist := by
  unfold Page.firstCursor present
  split
  next h => exact (Page.Walk.refl _).of_eq rfl h.symm h.symm
  next => exact Page.Walk.one (c := ⟨.waist, 0, 0, 0⟩) nofun

/-- R23, R65: the hem, where the page has one. -/
theorem hem_walk (faces : List Nat) : p.Walk faces (p.afterPass p.motif) ⟨.atEnd, 0, 0, 0⟩ (present p.hem) p.hem p.hem := by
  rw [Page.afterPass, if_neg (Nat.lt_irrefl _)]
  unfold present
  split
  next h => exact (Page.Walk.refl _).of_eq rfl h.symm h.symm
  next => exact Page.Walk.one (c := ⟨.hem, 0, 0, 0⟩) nofun

/-- R23, R24, R65: a panel, from its first unit to the end: J draws, N_J and W_J. -/
theorem panel_walk (hg : p.groups ≠ []) (hm : 1 ≤ p.motif) (hc : ∀ g ∈ p.groups, 1 ≤ g.count) :
    p.Walk (p.faces size) p.firstCursor ⟨.atEnd, 0, 0, 0⟩ p.units (p.totalN size) (p.totalW size) := by
  have motif := passes_walk (size := size) hg hc (m := p.motif - 1) (by omega)
  rw [Nat.sub_add_cancel hm, Nat.sub_sub_self hm] at motif
  refine ((waist_walk _).trans (motif.trans (hem_walk _))).of_eq ?_ ?_ ?_
  · rw [Page.units, pleatCount, Nat.add_assoc]
  · rw [totalN_eq, Page.consumedBy]; omega
  · rw [totalW_eq, Page.outputOf]; omega

end Walks

/-! ### A panel drawn unit by unit (O17) -/

/-- R25: a running total scaled never falls. -/
theorem scaled_mono (k : Nat) {x y : Nat} (h : x ≤ y) : scaled k x ≤ scaled k y :=
  Nat.div_le_div_right (by omega)

theorem scaled_start (k : Nat) : scaled k 0 = 0 := by
  rw [scaled, Nat.mul_zero, Nat.zero_add]
  rcases Nat.eq_zero_or_pos (10000 - k) with h | h
  · rw [h]
  · exact Nat.div_eq_of_lt (by omega)

@[simp] theorem triggerTest_head (s : State) : (triggerTest s).head = s.head := by
  unfold triggerTest
  split <;> rfl

@[simp] theorem triggerTest_lib (s : State) : (triggerTest s).lib = s.lib := by
  unfold triggerTest
  split <;> rfl

/-- The next unit of a panel wanted and drawn at once. -/
def drawNext (s : State) : State :=
  match (wantFold s).head.wanted with
  | some u => takeDraw u s
  | none => s

/-- The output of the next unit of a panel. -/
def nextOutput (s : State) : Nat :=
  match (wantFold s).head.wanted with
  | some u => u.output
  | none => 0

/-- A panel of a page is drawn with these accumulators and this cursor, takeup and output being those of the running totals (R29). -/
structure Drawing (p : Page) (a : Meter) (c : Cursor) (s : State) : Prop where
  page : s.boundPage = some p
  meter : s.head.meter = some a
  cursor : s.head.cursor = c
  takeup : a.m = scaled a.k a.n
  output : a.q = scaled a.k a.w

/-- R29: the accumulators moved on by so many draws with these totals. -/
def Meter.after (a : Meter) (n consumed out : Nat) : Meter :=
  { a with j := a.j + n, n := a.n + consumed, w := a.w + out
           m := scaled a.k (a.n + consumed), q := scaled a.k (a.w + out) }

theorem Meter.after_none {p : Page} {a : Meter} {c : Cursor} {s : State} (h : Drawing p a c s) : a.after 0 0 0 = a := by
  simp only [Meter.after, Nat.add_zero, ← h.takeup, ← h.output]

theorem Meter.move_after (a : Meter) (x y n consumed out : Nat) :
    (a.move x y).after n consumed out = a.after (n + 1) (x + consumed) (y + out) := by
  simp only [Meter.after, Meter.move, Nat.add_assoc, Nat.add_comm n 1]

/-- R29, R65: the accumulators and the cursor move to the unit drawn, and the page stays. -/
theorem moveMeter_eq {p : Page} {a : Meter} {s : State} (hp : s.boundPage = some p) (ha : s.head.meter = some a) :
    moveMeter s = { s with
      head.meter := some (a.move (p.unitAt a.faces s.head.cursor).1 (p.unitAt a.faces s.head.cursor).2.1)
      head.cursor := p.nextCursor s.head.cursor } := by
  simp only [moveMeter, hp, ha]

/-- R66: a fold unit drawn. -/
theorem takeDraw_fold {p : Page} {a : Meter} {s : State} {u : DrawUnit} (hp : s.boundPage = some p) (ha : s.head.meter = some a)
    (hu : u.fold = true) :
    (takeDraw u s).boundPage = some p ∧ (takeDraw u s).head.f = s.head.f + u.draw ∧
    (takeDraw u s).head.meter = some (a.move (p.unitAt a.faces s.head.cursor).1 (p.unitAt a.faces s.head.cursor).2.1) ∧
    (takeDraw u s).head.cursor = p.nextCursor s.head.cursor := by
  have moved := moveMeter_eq (a := a) (s := { s with
    line.store := s.line.store - u.draw, line.starved := false, line.stall := none
    head.f := s.head.f + u.draw, head.wanted := none, head.flight := some ⟨u, 0, false, none⟩
    head.blade := if u.strokes.isEmpty then s.head.blade else u.strokes }) hp ha
  have page : (takeDraw u s).boundPage = s.boundPage := by
    simp only [State.boundPage, State.slot, takeDraw, hu, if_true, moved, triggerTest_head, triggerTest_lib, judgeLatch_head,
      judgeLatch_lib, dropMarks_head_bound, dropMarks_lib]
  refine ⟨page.trans hp, ?_, ?_, ?_⟩ <;>
    simp only [takeDraw, hu, if_true, moved, triggerTest_head, judgeLatch_head, dropMarks_head_f, dropMarks_head_meter,
      dropMarks_head_cursor]

/-- R26, R65, R66: one unit drawn moves F, the accumulators and the cursor. -/
theorem drawNext_drawing {p : Page} {a : Meter} {c : Cursor} {s : State} (h : Drawing p a c s) :
    Drawing p (a.move (p.unitAt a.faces c).1 (p.unitAt a.faces c).2.1) (p.nextCursor c) (drawNext s) ∧
    (drawNext s).head.f = s.head.f + (scaled a.k (a.n + (p.unitAt a.faces c).1) - a.m) ∧
    nextOutput s = scaled a.k (a.w + (p.unitAt a.faces c).2.1) - a.q := by
  obtain ⟨hp, ha, rfl, _, _⟩ := h
  have wanted : (wantFold s).head.wanted = some (p.foldUnit a s.head.cursor s.k.overtravel s.head.offset) := by
    simp only [wantFold, hp, ha]
  have drawn : drawNext s = takeDraw (p.foldUnit a s.head.cursor s.k.overtravel s.head.offset) s := by
    rw [drawNext, wanted]
  obtain ⟨page, f, meter, cursor⟩ := takeDraw_fold hp ha (u := p.foldUnit a s.head.cursor s.k.overtravel s.head.offset) rfl
  rw [drawn]
  refine ⟨⟨page, meter, cursor, rfl, rfl⟩, f, ?_⟩
  rw [nextOutput, wanted]
  rfl

/-- R26, R72: along a walk of the cursor F rises by the takeup of the units drawn and their outputs add up to the output length. -/
theorem drawn_of_walk {p : Page} {c d : Cursor} {n consumed out : Nat} {faces : List Nat} (walk : p.Walk faces c d n consumed out) :
    ∀ {a : Meter} {s : State}, a.faces = faces → Drawing p a c s →
      (∀ i, i < n → (drawNext^[i] s).head.cursor.part ≠ .atEnd) ∧ Drawing p (a.after n consumed out) d (drawNext^[n] s) ∧
      (drawNext^[n] s).head.f = s.head.f + (scaled a.k (a.n + consumed) - a.m) ∧
      ((List.range n).map (fun i => nextOutput (drawNext^[i] s))).sum = scaled a.k (a.w + out) - a.q := by
  induction walk with
  | refl c =>
    intro a s _ h
    refine ⟨nofun, by rwa [Meter.after_none h], ?_, ?_⟩
    · simp [h.takeup]
    · simp [h.output]
  | @step c d n consumed out hc _ ih =>
    rintro a s rfl h
    obtain ⟨moved, hf, ho⟩ := drawNext_drawing h
    obtain ⟨before, after, rises, outputs⟩ := ih (a := a.move (p.unitAt a.faces c).1 (p.unitAt a.faces c).2.1) rfl moved
    have mono := scaled_mono a.k (Nat.le_add_right a.n (p.unitAt a.faces c).1)
    have mono' := scaled_mono a.k (Nat.le_add_right (a.n + (p.unitAt a.faces c).1) consumed)
    have omono := scaled_mono a.k (Nat.le_add_right a.w (p.unitAt a.faces c).2.1)
    have omono' := scaled_mono a.k (Nat.le_add_right (a.w + (p.unitAt a.faces c).2.1) out)
    obtain ⟨_, _, hcur, hm, hq⟩ := h
    simp only [Meter.move] at rises outputs
    refine ⟨?_, ?_, ?_, ?_⟩
    · intro i hi
      cases i with
      | zero => rw [Function.iterate_zero_apply, hcur]; exact hc
      | succ i => exact before i (by omega)
    · rw [← Meter.move_after]; exact after
    · rw [Function.iterate_succ_apply, rises, hf, hm, ← Nat.add_assoc a.n]
      omega
    · rw [List.range_succ_eq_map, List.map_cons, List.map_map, List.sum_cons, Function.iterate_zero_apply, ho]
      simp only [Function.comp_def, Function.iterate_succ_apply]
      rw [outputs, hq, ← Nat.add_assoc a.w]
      omega

/-- R26, R72: a panel drawn from its first unit is at its end after J draws and no sooner. -/
theorem panel_drawn {p : Page} {letter : Letter} {size k : Nat} {s : State} (hg : p.groups ≠ []) (hm : 1 ≤ p.motif)
    (hc : ∀ g ∈ p.groups, 1 ≤ g.count) (hp : s.boundPage = some p) (ha : s.head.meter = some (p.meter letter size k))
    (hcur : s.head.cursor = p.firstCursor) :
    (∀ n, n < p.units → (drawNext^[n] s).head.cursor.part ≠ .atEnd) ∧ (drawNext^[p.units] s).head.cursor.part = .atEnd ∧
    (drawNext^[p.units] s).head.f = s.head.f + (p.measure size k).t ∧
    ((List.range p.units).map (fun n => nextOutput (drawNext^[n] s))).sum = (p.measure size k).out ∧
    ∃ a, (drawNext^[p.units] s).head.meter = some a ∧ a.j = p.units ∧ a.n = (p.measure size k).n ∧ a.w = (p.measure size k).w ∧
      a.m = (p.measure size k).t ∧ a.q = (p.measure size k).out := by
  have start : Drawing p (p.meter letter size k) p.firstCursor s := ⟨hp, ha, hcur, (scaled_start k).symm, (scaled_start k).symm⟩
  obtain ⟨before, ended, rises, outputs⟩ := drawn_of_walk (panel_walk (size := size) hg hm hc) rfl start
  refine ⟨before, by rw [ended.cursor], ?_, ?_, _, ended.meter, ?_⟩
  · rw [rises]
    simp [Page.meter, Page.measure]
  · rw [outputs]
    simp [Page.meter, Page.measure]
  · simp [Meter.after, Page.meter, Page.measure]

/-! ### Read Pattern and Measure Pattern (O17) -/

section Queries

variable {no : Nat} {q : Req} {s : State}

/-- R14: Read Pattern of a slot that holds the page asked for. -/
theorem decideReadPattern_page {alt : Bool} {p : Page} (hn : q.key.toNat ≤ 47) (hb : (s.slot q.key.toNat).busy = false)
    (hs : (s.slot q.key.toNat).state ≠ .free) (hp : (s.slot q.key.toNat).readPage alt = some p) :
    decideReadPattern no q alt s = conclude no { doneParams [(0, (s.slot q.key.toNat).summary)] with
      data := dataBytes q.data p.bytes, residual := residualBytes q.data p.bytes } s := by
  have idle : ¬ (s.slot q.key.toNat).busy = true := by simp [hb]
  simp only [decideReadPattern, patternOf, if_neg (Nat.not_lt.2 hn), if_neg idle, if_neg hs, hp, Option.map_some, Option.getD_some]

variable {a : MeasureArgs}

/-- R32, step 1: what Measure Pattern refuses before it looks at the slot. -/
theorem decideMeasure_range :
    (47 < q.key.toNat → decideMeasure no q a s = conclude no (badField keyField [natVal q.key.toNat]) s) ∧
    (q.key.toNat ≤ 47 → 11 < a.size.toNat →
      decideMeasure no q a s = conclude no (badField (fieldId 0 0) [natVal a.size.toNat]) s) ∧
    (q.key.toNat ≤ 47 → a.size.toNat ≤ 11 → 8 < a.cls.toNat →
      decideMeasure no q a s = conclude no (badField (fieldId 0 1) [natVal a.cls.toNat]) s) := by
  refine ⟨fun h => if_pos h, fun h1 h => ?_, fun h1 h2 h => ?_⟩
  · exact (if_neg (Nat.not_lt.2 h1)).trans (if_pos h)
  · exact (if_neg (Nat.not_lt.2 h1)).trans ((if_neg (Nat.not_lt.2 h2)).trans (if_pos h))

variable (hn : q.key.toNat ≤ 47) (hz : a.size.toNat ≤ 11) (hc : a.cls.toNat ≤ 8)
include hn hz hc

/-- R6: Measure Pattern waits for a busy slot. -/
theorem decideMeasure_busy (hb : (s.slot q.key.toNat).busy = true) :
    decideMeasure no q a s = holdWaiting no (.slot q.key.toNat) s := by
  rw [decideMeasure, patternOf, if_neg (Nat.not_lt.2 hn), if_neg (Nat.not_lt.2 hz), if_neg (Nat.not_lt.2 hc), if_pos hb]

/-- R32, R33: Measure Pattern at a slot that is not busy, by the slot's state and the class. -/
theorem decideMeasure_idle (hb : (s.slot q.key.toNat).busy = false) :
    ((s.slot q.key.toNat).state = .free → decideMeasure no q a s = conclude no (refusal .noRecord Sense.none) s) ∧
    (∀ p, (s.slot q.key.toNat).state ≠ .free → (s.slot q.key.toNat).nextPage = some p → decideMeasure no q a s =
      if a.cls.toNat ≠ 0 ∧ (s.fibre a.cls.toNat).isNone then conclude no (emptyClass a.cls.toNat) s
      else conclude no (measureAnswer (s.slot q.key.toNat) p a.size.toNat
        (if a.cls.toNat = 0 then 0 else s.allowance a.cls.toNat)) s) := by
  rw [decideMeasure, patternOf, if_neg (Nat.not_lt.2 hn), if_neg (Nat.not_lt.2 hz), if_neg (Nat.not_lt.2 hc),
    if_neg (by simp [hb])]
  refine ⟨fun hs => ?_, fun p hs hp => ?_⟩
  · rw [hs]
  · rw [hp]
    rcases h : (s.slot q.key.toNat).state with _ | _ | _
    · exact absurd h hs
    · rfl
    · rfl

end Queries

/-- R27, R33: the answer of a measurement of a page: refused by its grades, DONE within the limits, and FIT outside them. -/
theorem measureAnswer_cases (x : Slot) (p : Page) (size k : Nat) :
    (∀ f, p.gradeCheck size = some f → measureAnswer x p size k = refusal .gradeRange (gradeSense f size none)) ∧
    (p.gradeCheck size = none → (p.measure size k).ok = true →
      measureAnswer x p size k = doneParams [(2, measureResults x p (p.measure size k))]) ∧
    (p.gradeCheck size = none → ¬ (p.measure size k).ok = true → measureAnswer x p size k =
      { refusal .fit (fitSense (p.measure size k)) with params := [(2, measureResults x p (p.measure size k))] }) := by
  unfold measureAnswer
  refine ⟨fun f hf => by rw [hf], fun hn hok => ?_, fun hn hok => ?_⟩
  · rw [hn]
    exact if_pos hok
  · rw [hn]
    exact if_neg hok

/-- Settles O17: the queries by their decisions, the grades and totals by the groups, and a panel by the walk of its cursor. -/
theorem readAndMeasurePattern : Obligations.ReadAndMeasurePattern := by
  refine ⟨?_, ?_, ?_, ?_, ?_, fun y => ⟨?_, ?_, rfl⟩⟩
  · intro e q alt s x p hd u n y total hn hb hs hp
    exact exec_of_dispatches_readsOnly hd rfl rfl (decideReadPattern_page hn hb hs hp)
  · intro e q a s x p hd u n y size k scale t out figures hn hz hc hb hs hp hcls
    have classed : ¬ (a.cls.toNat ≠ 0 ∧ (u.fibre a.cls.toNat).isNone = true) := by
      rintro ⟨h0, hnone⟩
      rcases hcls with h | h
      · exact h0 h
      · rw [Option.isNone_iff_eq_none.1 hnone] at h
        cases h
    have decided := ((decideMeasure_idle (no := x.no) hn hz hc hb).2 p hs hp).trans (if_neg classed)
    have answered : ∀ r, measureAnswer y p size k = r → exec (.measurePattern e q a) s = .next (conclude x.no r u) := by
      rintro r rfl
      exact exec_of_dispatches_readsOnly hd rfl rfl decided
    have limits : (p.measure size k).ok = true ↔ 1000 ≤ out ∧ out ≤ 40000 ∧ t ≤ 120000 := measured_ok_iff _
    obtain ⟨grade, fits, unfit⟩ := measureAnswer_cases y p size k
    exact ⟨fun g hg => answered _ (grade g hg), fun hg h1 h2 h3 => answered _ (fits hg (limits.2 ⟨h1, h2, h3⟩)),
      fun hg hl => answered _ (unfit hg (mt limits.1 hl))⟩
  · intro e q a s x hd u n y cls refused
    have answered : ∀ t, decideMeasure x.no q a u = t → exec (.measurePattern e q a) s = .next t :=
      fun t ht => exec_of_dispatches_readsOnly hd rfl rfl ht
    obtain ⟨badNumber, badSize, badClass⟩ := decideMeasure_range (no := x.no) (q := q) (s := u) (a := a)
    refine ⟨fun h => answered _ (badNumber h), fun h1 h => answered _ (badSize h1 h), fun h1 h2 h => answered _ (badClass h1 h2 h),
      fun hn hz hc => ⟨fun hb => answered _ (decideMeasure_busy hn hz hc hb), fun hb hs => ?_, fun p hb hs hp h0 hempty => ?_⟩⟩
    · exact answered _ ((decideMeasure_idle hn hz hc hb).1 hs)
    · have empty : (u.fibre a.cls.toNat).isNone = true := Option.isNone_iff_eq_none.2 hempty
      exact answered _ (((decideMeasure_idle hn hz hc hb).2 p hs hp).trans (if_pos ⟨h0, empty⟩))
  · intro p size k face least hidden folds valid sum scale m
    have consumption : ∀ g, g.consumption (p.faceOf size g) = (face g).toNat + hidden g := by
      rintro ⟨kind, _, _, _, _⟩
      cases kind <;> simp [Group.consumption, FoldKind.underlays, hidden, face, Page.faceOf, Group.graded]
    have strokes : ∀ g : Group, g.kind.strokes.length = folds g := by
      rintro ⟨kind, _, _, _, _⟩
      cases kind <;> rfl
    refine ⟨gradeCheck_valid, fun before g after hp hb hg => gradeCheck_invalid hp hb hg, ?_, totalW_eq p size, ?_, ?_,
      (span_sizes p).1, (span_sizes p).2, rfl, measured_ok_iff m⟩
    · simp only [totalN_eq, sum, consumption]
    · simp only [Page.units, sum, Nat.mul_one]
      rfl
    · simp only [Page.strokeCount, sum, strokes]
  · intro p letter size k s hg hm hc hp ha hcur
    exact panel_drawn hg hm hc hp ha hcur
  · intro h
    rw [Slot.nextLetter, h]
    rfl
  · intro h
    rw [Slot.nextLetter, h]
    rfl

end Sys2Proof.Machine

/-! ### Fibre classes and rolls (O18, O19, O20, O21) -/

namespace Sys2Proof.Machine

/-- The constants in force, once they are set (R126). -/
theorem k_of_consts {s : State} {k : Consts} (h : s.line.consts = some k) : s.k = k := by rw [State.k, h, Option.getD_some]

/-- R35: a parameter in its range passes. -/
theorem paramRange_within {offset v lo hi : Nat} (h : lo ≤ v ∧ v ≤ hi) : paramRange offset v lo hi = none := by
  rw [paramRange, if_neg (Nat.not_lt.2 h.1), if_neg (Nat.not_lt.2 h.2)]

/-- R35: a parameter out of its range is refused for its field. -/
theorem paramRange_outside {offset v lo hi : Nat} (h : ¬ (lo ≤ v ∧ v ≤ hi)) :
    ∃ vals, paramRange offset v lo hi = some (badField (fieldId 0 offset) vals) := by
  rw [paramRange]
  split
  next => exact ⟨_, rfl⟩
  next low => exact ⟨_, if_pos (by omega)⟩

theorem paramRange_eq_none {offset v lo hi : Nat} : paramRange offset v lo hi = none ↔ lo ≤ v ∧ v ≤ hi := by
  refine ⟨fun h => ?_, paramRange_within⟩
  by_contra out
  obtain ⟨_, refused⟩ := paramRange_outside (offset := offset) out
  rw [h] at refused
  cases refused

/-- What a range check refuses, it refuses as BAD_PARAM. -/
theorem paramRange_badField {offset v lo hi : Nat} {r : Answer} (h : paramRange offset v lo hi = some r) :
    ∃ vals, r = badField (fieldId 0 offset) vals := by
  have out : ¬ (lo ≤ v ∧ v ≤ hi) := fun within => by rw [paramRange_within within] at h; cases h
  obtain ⟨vals, refused⟩ := paramRange_outside (offset := offset) out
  exact ⟨vals, Option.some.inj (h.symm.trans refused)⟩

/-! ### Set, Clear and Read Fibre Class (O18, O19, O20) -/

/-- R35: the ranges of Set Fibre Class. -/
def classInRange (a : ClassArgs) : Prop :=
  (1 ≤ a.cls.toNat ∧ a.cls.toNat ≤ 8) ∧ (600 ≤ a.theta.toNat ∧ a.theta.toNat ≤ 2000) ∧
    (a.theta.toNat + 100 ≤ a.tmax.toNat ∧ a.tmax.toNat ≤ 2400) ∧ (40 ≤ a.dose.toNat ∧ a.dose.toNat ≤ 16777215) ∧
    a.k.toNat ≤ 800

theorem classFail_eq_none {a : ClassArgs} : classFail a = none ↔ classInRange a := by
  simp [classFail, classInRange, paramRange_eq_none, List.findSome?_eq_none_iff]

/-- R35: whichever check fails, the refusal is a BAD_PARAM. -/
theorem classFail_badField {a : ClassArgs} {r : Answer} (h : classFail a = some r) : ∃ field vals, r = badField field vals := by
  obtain ⟨check, hmem, hr⟩ := List.exists_of_findSome?_eq_some h
  have ranged : ∃ offset v lo hi, check = paramRange offset v lo hi := by
    simp only [List.mem_cons, List.not_mem_nil, or_false] at hmem
    rcases hmem with rfl | rfl | rfl | rfl | rfl <;> exact ⟨_, _, _, _, rfl⟩
  obtain ⟨offset, v, lo, hi, rfl⟩ := ranged
  exact ⟨_, paramRange_badField hr⟩

section ClassDecisions

variable {no : Nat} {s : State}

/-- R35, R37: Set Fibre Class with every value in range. -/
theorem decideSetClass_inRange {a : ClassArgs} (h : classInRange a) : decideSetClass no a s =
    conclude no (doneDetail (if s.fibre a.cls.toNat = none then 1 else 2))
      (publish (s.setClass a.cls.toNat (some ⟨a.theta.toNat, a.tmax.toNat, a.dose.toNat, a.k.toNat⟩))) := by
  simp only [decideSetClass, classFail_eq_none.2 h, Option.isNone_iff_eq_none]

/-- R35: Set Fibre Class with a value out of range. -/
theorem decideSetClass_outOfRange {a : ClassArgs} (h : ¬ classInRange a) :
    ∃ field vals, decideSetClass no a s = conclude no (badField field vals) s := by
  obtain ⟨r, hr⟩ := Option.ne_none_iff_exists'.1 (mt classFail_eq_none.1 h)
  obtain ⟨field, vals, rfl⟩ := classFail_badField hr
  exact ⟨field, vals, by rw [decideSetClass, hr]⟩

variable {cls : U8}

/-- R36: a class number out of range. -/
theorem decideClearClass_outOfRange (h : ¬ (1 ≤ cls.toNat ∧ cls.toNat ≤ 8)) :
    ∃ vals, decideClearClass no cls s = conclude no (badField (fieldId 0 0) vals) s := by
  obtain ⟨vals, refused⟩ := paramRange_outside (offset := 0) h
  exact ⟨vals, by simp only [decideClearClass, refused]⟩

/-- R36: a class number in range, by the entry and the rolls that name it. -/
theorem decideClearClass_inRange (h : 1 ≤ cls.toNat ∧ cls.toNat ≤ 8) :
    (s.fibre cls.toNat = none → decideClearClass no cls s = conclude no (emptyClass cls.toNat) s) ∧
    (∀ r rs, s.fibre cls.toNat ≠ none → s.rollsOf cls.toNat = r :: rs → decideClearClass no cls s =
      conclude no (refusal .inUse ⟨0, some r.tag, [natVal (s.rollsOf cls.toNat).length, natVal r.tag]⟩) s) ∧
    (s.fibre cls.toNat ≠ none → s.rollsOf cls.toNat = [] →
      decideClearClass no cls s = conclude no done (s.setClass cls.toNat none)) := by
  simp only [decideClearClass, paramRange_within h, Option.isNone_iff_eq_none]
  refine ⟨fun hf => if_pos hf, fun r rs hf hr => ?_, fun hf hr => ?_⟩
  · rw [if_neg hf, hr]
  · rw [if_neg hf, hr]

/-- R38: a class number out of range. -/
theorem decideReadClass_outOfRange (h : ¬ (1 ≤ cls.toNat ∧ cls.toNat ≤ 8)) :
    ∃ vals, decideReadClass no cls s = conclude no (badField (fieldId 0 0) vals) s := by
  obtain ⟨vals, refused⟩ := paramRange_outside (offset := 0) h
  exact ⟨vals, by rw [decideReadClass, refused]⟩

/-- R38: a class number in range. -/
theorem decideReadClass_inRange (h : 1 ≤ cls.toNat ∧ cls.toNat ≤ 8) :
    decideReadClass no cls s = conclude no (doneParams (s.classResults cls.toNat)) s := by
  rw [decideReadClass, paramRange_within h]

end ClassDecisions

/-- R34: the entry of a class number is the one at its place in the table. -/
theorem fibre_of_getElem? {s : State} {c : Nat} {e : Option FibreClass} (hc : 1 ≤ c) (he : s.turret.classes[c - 1]? = some e) :
    s.fibre c = e := by
  rw [State.fibre, if_neg (by omega), List.getD_eq_getElem?_getD, he, Option.getD_some]

/-- Settles O19: Clear Fibre Class by the range of its number, the entry, and the rolls that name it. -/
theorem clearFibreClassFollowsR36 : Obligations.ClearFibreClassFollowsR36 := by
  intro e q cls s x hd u c naming
  have answered : ∀ t, decideClearClass x.no cls u = t → exec (.clearFibreClass e q cls) s = .next (settle t) :=
    fun t ht => exec_of_dispatches hd rfl rfl ht
  refine ⟨fun hc => ?_, fun h1 h8 hf => ?_, fun h1 h8 hf r rs hr => ?_, fun h1 h8 hf hr => ?_⟩
  · obtain ⟨vals, refused⟩ := decideClearClass_outOfRange hc
    exact ⟨_, answered _ refused⟩
  · exact ⟨_, answered _ ((decideClearClass_inRange ⟨h1, h8⟩).1 hf)⟩
  · exact ⟨_, rfl, answered _ ((decideClearClass_inRange ⟨h1, h8⟩).2.1 r rs hf hr)⟩
  · exact answered _ ((decideClearClass_inRange ⟨h1, h8⟩).2.2 hf hr)

/-- Settles O20: the results written for an EMPTY entry and for a VALID one. -/
theorem readFibreClassReports : Obligations.ReadFibreClassReports := by
  intro e q cls s x hd u c named runs
  have answered : ∀ t, decideReadClass x.no cls u = t → exec (.readFibreClass e q cls) s = .next t :=
    fun t ht => exec_of_dispatches_readsOnly hd rfl rfl ht
  have results : ∀ y, 1 ≤ c → c ≤ 8 → u.turret.classes[c - 1]? = some y →
      decideReadClass x.no cls u = conclude x.no (doneParams (u.classResults c)) u ∧ u.fibre c = y :=
    fun y h1 h8 hy => ⟨decideReadClass_inRange ⟨h1, h8⟩, fibre_of_getElem? h1 hy⟩
  refine ⟨fun hc => ?_, fun h1 h8 hy => ?_, fun f h1 h8 hy => ?_⟩
  · obtain ⟨vals, refused⟩ := decideReadClass_outOfRange hc
    exact ⟨_, answered _ refused⟩
  · obtain ⟨decided, empty⟩ := results none h1 h8 hy
    rw [State.classResults, empty] at decided
    exact answered _ decided
  · obtain ⟨decided, valid⟩ := results (some f) h1 h8 hy
    rw [State.classResults, valid] at decided
    exact answered _ decided

/-! ### Register Roll (O18) -/

/-- R43, R44: the bounds of a declared length. -/
theorem badLength_iff {s : State} {k : Consts} (hk : s.line.consts = some k) (len least : Nat) :
    s.badLength len least = true ↔ ¬ (least ≤ len ∧ k.rs < len ∧ len ≤ 20000000) := by
  simp only [State.badLength, k_of_consts hk, Bool.or_eq_true, decide_eq_true_eq]
  omega

section RegisterDecision

variable {no : Nat} {q : Req} {a : RollArgs} {s : State}

/-- R43: Register Roll with a tag of 0, or while the constants are unset. -/
theorem decideRegister_refused :
    (q.key.toNat = 0 → decideRegister no q a s = conclude no (badField keyField [0]) s) ∧
    (q.key.toNat ≠ 0 → s.line.consts = none → decideRegister no q a s = conclude no (refusal .wrongState Sense.none) s) := by
  refine ⟨fun h0 => ?_, fun h0 hc => ?_⟩
  · rw [decideRegister, if_pos h0, badKey, h0]
    rfl
  · rw [decideRegister, if_neg h0, if_pos (Option.isNone_iff_eq_none.2 hc)]

/-- R43: Register Roll of a new tag with its length and class in order turns on the room in the table. -/
theorem decideRegister_new {k : Consts} (h0 : q.key.toNat ≠ 0) (hk : s.line.consts = some k) (hlo : k.rs + 1 ≤ a.len.toNat)
    (hhi : a.len.toNat ≤ 20000000) (hc : 1 ≤ a.cls.toNat ∧ a.cls.toNat ≤ 8) (hf : s.fibre a.cls.toNat ≠ none)
    (hn : s.findRoll q.key.toNat = none) : decideRegister no q a s =
      if 8 ≤ s.turret.rolls.length then
        conclude no (refusal .tableFull (senseVals [natVal (s.turret.rolls.countP (fun r => r.state == .spent))])) s
      else conclude no done { s with turret.rolls := s.turret.rolls ++
        [⟨q.key.toNat, a.len.toNat, a.cls.toNat, a.width.toNat, .staged, none, 0, 0, none⟩] } := by
  have set : ¬ s.line.consts.isNone = true := by simp [hk]
  have length : ¬ s.badLength a.len.toNat 0 = true := by rw [badLength_iff hk]; omega
  have valid : ¬ (s.fibre a.cls.toNat).isNone = true := mt Option.isNone_iff_eq_none.1 hf
  rw [decideRegister, if_neg h0, if_neg set, if_neg length, paramRange_within hc, hn]
  exact if_neg valid

end RegisterDecision

/-- Settles O18: Set Fibre Class by the ranges of its values, Register Roll by its tag, the constants, and the room in the table. -/
theorem classesAndRollsEntered : Obligations.ClassesAndRollsEntered := by
  refine ⟨?_, ?_⟩
  · intro e q a s x hd u c ok
    refine ⟨fun h => exec_of_dispatches hd rfl rfl (decideSetClass_inRange h), fun h => ?_⟩
    obtain ⟨field, vals, refused⟩ := decideSetClass_outOfRange h
    exact ⟨vals, field, exec_of_dispatches hd rfl rfl refused⟩
  · intro e q a s x k hd u tag
    have answered : ∀ t, decideRegister x.no q a u = t → exec (.registerRoll e q a) s = .next (settle t) :=
      fun t ht => exec_of_dispatches hd rfl rfl ht
    refine ⟨fun h0 => answered _ (decideRegister_refused.1 h0), fun h0 hc => answered _ (decideRegister_refused.2 h0 hc),
      fun h0 hk hlo hhi h1 h8 hf hn => ?_⟩
    have decided := decideRegister_new (no := x.no) h0 hk hlo hhi ⟨h1, h8⟩ hf hn
    exact ⟨fun room => answered _ (decided.trans (if_neg (Nat.not_le.2 room))),
      fun full => answered _ (decided.trans (if_pos full))⟩

/-! ### Amend Roll and Retire Roll (O21) -/

/-- R48: a roll is in a press while the sequence is PRESSING with it outgoing or incoming. -/
theorem inPress_iff (s : State) (tag : Nat) : s.inPress tag = true ↔ s.turret.seq = .pressing ∧
    ((∃ p, s.turret.outgoing = some p ∧ p.tag = tag) ∨ ∃ p, s.turret.incoming = some p ∧ p.tag = tag) := by
  simp [State.inPress, Option.any_eq_true]

section RollDecisions

variable {no : Nat} {q : Req} {s : State} {r : Roll}

/-- R44, step 4: a class change of a roll already prepared. -/
theorem amendClassFail_prepared (c : Nat) (h : r.state = .prepared ∨ r.state = .running ∨ r.state = .spent) :
    s.amendClassFail r c = some (refusal .wrongState (senseVals [natVal r.state.code])) := if_pos h

/-- R44, step 4: a class change is refused unless the roll is not yet prepared and the class is VALID. -/
theorem amendClassFail_eq_none {c : Nat} :
    s.amendClassFail r c = none ↔ (r.state = .staged ∨ r.state = .mounted) ∧ 1 ≤ c ∧ c ≤ 8 ∧ s.fibre c ≠ none := by
  have states : (r.state = .staged ∨ r.state = .mounted) ↔ ¬ (r.state = .prepared ∨ r.state = .running ∨ r.state = .spent) := by
    cases r.state <;> simp
  rw [states, State.amendClassFail]
  split
  next prepared => simp [prepared]
  next fresh =>
    simp only [fresh, not_false_eq_true, true_and]
    split
    next refused =>
      have out : ¬ (1 ≤ c ∧ c ≤ 8) := fun within => by rw [paramRange_within within] at refused; cases refused
      simp only [reduceCtorEq, false_iff]
      exact fun h => out ⟨h.1, h.2.1⟩
    next within =>
      obtain ⟨h1, h8⟩ := paramRange_eq_none.1 within
      simp [h1, h8, Option.isNone_iff_eq_none]

theorem amendClassFail_code {c : Nat} {y : Answer} (h : s.amendClassFail r c = some y) : y.code ≠ .done := by
  rw [State.amendClassFail] at h
  split at h
  next => cases h; nofun
  next =>
    split at h
    next refused =>
      cases h
      obtain ⟨vals, rfl⟩ := paramRange_badField refused
      nofun
    next =>
      split at h
      · cases h; nofun
      · cases h

variable {a : AmendArgs}

/-- R44, steps 3 and 4: an amendment passes when its length and its class do. -/
theorem amendRollFail_eq_none {k : Consts} (hk : s.line.consts = some k) : s.amendRollFail a r = none ↔
    (a.setLen = true → r.u < a.len.toNat ∧ k.rs < a.len.toNat ∧ a.len.toNat ≤ 20000000) ∧
    (a.setCls = true → (r.state = .staged ∨ r.state = .mounted) ∧ 1 ≤ a.cls.toNat ∧ a.cls.toNat ≤ 8 ∧
      s.fibre a.cls.toNat ≠ none) := by
  simp only [State.amendRollFail, badLength_iff hk]
  split
  next bad =>
    obtain ⟨set, out⟩ := bad
    simp only [reduceCtorEq, false_iff]
    exact fun h => out (h.1 set)
  next good =>
    have len : a.setLen = true → r.u < a.len.toNat ∧ k.rs < a.len.toNat ∧ a.len.toNat ≤ 20000000 :=
      fun set => not_not.1 fun out => good ⟨set, out⟩
    rw [and_iff_right len]
    split
    next set => rw [amendClassFail_eq_none, forall_prop_of_true set]
    next clear => simp [clear]

theorem amendRollFail_code {y : Answer} (h : s.amendRollFail a r = some y) : y.code ≠ .done := by
  rw [State.amendRollFail] at h
  split at h
  · cases h; nofun
  · split at h
    · exact amendClassFail_code h
    · cases h

variable (h0 : q.key.toNat ≠ 0) (hr : s.findRoll q.key.toNat = some r)
include h0 hr

/-- R44, R45, R48: Amend Roll of a roll present: it waits for a press, and then the first failure decides. -/
theorem decideAmendRoll_present :
    (s.inPress q.key.toNat = true → decideAmendRoll no q a s = holdWaiting no (.roll q.key.toNat) s) ∧
    (∀ y, s.inPress q.key.toNat = false → s.amendRollFail a r = some y → decideAmendRoll no q a s = conclude no y s) ∧
    (s.inPress q.key.toNat = false → s.amendRollFail a r = none → decideAmendRoll no q a s =
      conclude no done (if r.state = .running ∧ a.setLen = true
        then changeWishes judgePoint (s.mapRoll q.key.toNat (amendedRoll a)) else s.mapRoll q.key.toNat (amendedRoll a))) := by
  simp only [decideAmendRoll, hr, if_neg h0]
  refine ⟨fun hp => if_pos hp, fun y hp hy => ?_, fun hp hn => ?_⟩
  · rw [hp, hy]
    rfl
  · rw [hp, hn]
    rfl

/-- R48: Retire Roll of a roll in a press waits. -/
theorem decideRetireRoll_inPress (hp : s.inPress q.key.toNat = true) :
    decideRetireRoll no q s = holdWaiting no (.roll q.key.toNat) s := by
  simp only [decideRetireRoll, hr, if_neg h0, if_pos hp]

/-- R47: Retire Roll of a roll outside a press goes by the roll's state. -/
theorem decideRetireRoll_outside (hp : s.inPress q.key.toNat = false) :
    (r.state = .staged ∨ r.state = .mounted → decideRetireRoll no q s = conclude no done (unmount r s)) ∧
    (r.state = .prepared → decideRetireRoll no q s = conclude no done (publish (unmount r s))) ∧
    (r.state = .running → decideRetireRoll no q s = conclude no (refusal .inUse (senseVals [natVal r.remaining])) s) ∧
    (r.state = .spent → decideRetireRoll no q s =
      if r.watch.isSome = true then
        conclude no (refusal .wrongState (senseVals [natVal r.refs, natVal (spindleCode r.spindle)])) s
      else if r.releasable = true then conclude no done (removeRoll q.key.toNat s)
      else holdRunning no (s.mapRoll q.key.toNat (fun x => { x with watch := some no }))) := by
  have outside : ¬ s.inPress q.key.toNat = true := by simp [hp]
  simp only [decideRetireRoll, hr, if_neg h0, if_neg outside]
  refine ⟨fun hst => ?_, fun hst => ?_, fun hst => ?_, fun hst => ?_⟩
  · rcases hst with hst | hst <;> rw [hst]
  · rw [hst]
  · rw [hst]
  · rw [hst]

end RollDecisions

/-- R47: a SPENT roll is let go when no segment and no spindle names it. -/
theorem releasable_iff {r : Roll} (h : r.state = .spent) : r.releasable = true ↔ r.refs = 0 ∧ r.spindle = none := by
  simp [Roll.releasable, h]

/-- Settles O21: Amend Roll by the press, its length and its class; Retire Roll by the press and the roll's state. -/
theorem rollsAmendedAndRetired : Obligations.RollsAmendedAndRetired := by
  refine ⟨?_, ?_, fun tag s => inPress_iff s tag⟩
  · intro e q a s x r k hd u tag v lenOk clsOk h0 hr hk
    have answered : ∀ t, decideAmendRoll x.no q a u = t → exec (.amendRoll e q a) s = .next (settle t) :=
      fun t ht => exec_of_dispatches hd rfl rfl ht
    obtain ⟨waits, refused, amended⟩ := decideAmendRoll_present (no := x.no) (a := a) h0 hr
    refine ⟨fun hp => answered _ (waits hp), fun hp hl hc => ?_, fun hp hbad => ?_, fun hp hl hset hst => ?_⟩
    · exact answered _ (amended hp ((amendRollFail_eq_none hk).2 ⟨hl, hc⟩))
    · obtain ⟨y, hy⟩ := Option.ne_none_iff_exists'.1 (mt (amendRollFail_eq_none hk).1 hbad)
      exact ⟨y, amendRollFail_code hy, answered _ (refused y hp hy)⟩
    · have length : ¬ (a.setLen = true ∧ u.badLength a.len.toNat (r.u + 1) = true) :=
        fun h => (badLength_iff hk _ _).1 h.2 (hl h.1)
      have class_first : u.amendRollFail a r = some (refusal .wrongState (senseVals [natVal r.state.code])) := by
        rw [State.amendRollFail, if_neg length, if_pos hset, amendClassFail_prepared _ hst]
      exact answered _ (refused _ hp class_first)
  · intro e q s x r hd u tag without freed h0 hr
    have answered : ∀ t, decideRetireRoll x.no q u = t → exec (.retireRoll e q) s = .next (settle t) :=
      fun t ht => exec_of_dispatches hd rfl rfl ht
    refine ⟨fun hp => answered _ (decideRetireRoll_inPress h0 hr hp), fun hp => ?_⟩
    have unmounted : unmount r u = without freed := by
      simp only [unmount, without, freed]
      cases r.spindle <;> rfl
    obtain ⟨unused, prepared, running, spent⟩ := decideRetireRoll_outside (no := x.no) h0 hr hp
    rw [unmounted] at unused prepared
    have unwatched : r.watch = none → ¬ r.watch.isSome = true := fun hw => by simp [hw]
    refine ⟨fun hst => answered _ (unused hst), fun hst => answered _ (prepared hst), fun hst => answered _ (running hst),
      fun hst hw hrefs hsp => ?_, fun hst hw hheld => ?_, fun hst hw => ?_⟩
    · have free := (releasable_iff hst).2 ⟨hrefs, hsp⟩
      exact answered _ ((spent hst).trans ((if_neg (unwatched hw)).trans (if_pos free)))
    · have held := mt (releasable_iff hst).1 hheld
      exact answered _ ((spent hst).trans ((if_neg (unwatched hw)).trans (if_neg held)))
    · exact ⟨_, rfl, answered _ ((spent hst).trans (if_pos (Option.isSome_iff_ne_none.2 hw)))⟩

end Sys2Proof.Machine

/-! ### An unwind advance (O49) -/

namespace Sys2Proof.Machine

/-- R41: an advance exhausts the RUNNING roll when it brings a remaining length to 0. -/
theorem exhausts_iff (s : State) (len : Nat) :
    s.exhausts len = true ↔ ∃ r, s.runningRoll = some r ∧ 0 < r.remaining ∧ r.remaining ≤ len := by
  simp [State.exhausts, Option.any_eq_true]

/-- R140: the states in which the unwind may run. -/
theorem moving_eq (l : LineState) :
    l.moving = decide (l = .thread ∨ l = .starting ∨ l = .run ∨ l = .hold ∨ l = .stopping) := by
  cases l <;> rfl

theorem bne_eq_decide_ne (x y : SpliceState) : (x != y) = decide (x ≠ y) := by rw [bne, beq_eq_decide, decide_not]

/-- R140: the latch as the store and the capacity leave it. -/
def latchAt (cap store : Nat) (shut : Bool) : Bool :=
  if cap - cap / 10 ≤ store then true else if store < cap / 2 then false else shut

/-- R140: shut from 9/10 of the capacity, open below half of it, and as it was between. -/
theorem latchAt_cases (cap store : Nat) (shut : Bool) :
    (cap - cap / 10 ≤ store → latchAt cap store shut = true) ∧
    (store < cap - cap / 10 → store < cap / 2 → latchAt cap store shut = false) ∧
    (store < cap - cap / 10 → cap / 2 ≤ store → latchAt cap store shut = shut) := by
  refine ⟨fun h => if_pos h, fun h1 h2 => ?_, fun h1 h2 => ?_⟩
  · exact (if_neg (Nat.not_le.2 h1)).trans (if_pos h2)
  · exact (if_neg (Nat.not_le.2 h1)).trans (if_neg (Nat.not_lt.2 h2))

/-- R140: the unwind output judged with the latch at a given level; it writes the two and nothing else. -/
def unwindWith (shut : Bool) (s : State) : State :=
  { s with
    line.latchShut := shut
    line.unwind := s.line.state.moving && !shut && s.runningRoll.isSome && s.turret.seq != .pressing }

theorem judgeUnwind_eq (s : State) : judgeUnwind s = unwindWith s.line.latchShut s := rfl

theorem judgeLatch_eq (s : State) : judgeLatch s = unwindWith (latchAt s.k.cap s.line.store s.line.latchShut) s := rfl

/-- R141: the limit as the store, the capacity and the range step it. -/
def limitAt (cap store limit : Nat) (range : SpeedRange) : Nat :=
  if store < cap / 4 then max range.min (limit - 2)
  else if cap / 2 < store then min range.max (limit + 1)
  else limit

/-- R141: down by 2 below a quarter of the capacity, up by 1 above half of it, and as it was between. -/
theorem limitAt_cases (cap store limit : Nat) (range : SpeedRange) :
    (store < cap / 4 → limitAt cap store limit range = max range.min (limit - 2)) ∧
    (cap / 4 ≤ store → store ≤ cap / 2 → limitAt cap store limit range = limit) ∧
    (cap / 2 < store → limitAt cap store limit range = min range.max (limit + 1)) := by
  refine ⟨fun h => if_pos h, fun h1 h2 => ?_, fun h => ?_⟩
  · exact (if_neg (Nat.not_lt.2 h1)).trans (if_neg (Nat.not_lt.2 h2))
  · exact (if_neg (by omega)).trans (if_pos h)

/-- R139, R140, R141, R142: what an advance makes of the seven fields of the line it touches. -/
theorem storeAdvance_eq (len : Nat) (s : State) : storeAdvance len s =
    let a := min s.k.cap (s.line.store + len)
    let shut := latchAt s.k.cap a s.line.latchShut
    let limit := limitAt s.k.cap a s.line.limit s.line.range
    let effective := min (min s.line.commanded s.line.range.max) (min s.line.ceiling limit)
    { s with
      line.store := a, line.latchShut := shut, line.limit := limit, line.effective := effective
      line.unwind := s.line.state.moving && !shut && s.runningRoll.isSome && s.turret.seq != .pressing
      line.speedRef := { s.line with effective := effective }.reference
      line.stall := if s.line.stall.isSome then some s.line.clock else none } := by
  rfl

section StoreAdvance

variable (len : Nat) (s : State)

/-- R139: the store takes the advance up to the capacity. -/
theorem storeAdvance_store : (storeAdvance len s).line.store = min s.k.cap (s.line.store + len) := by rw [storeAdvance_eq]

theorem storeAdvance_latch : (storeAdvance len s).line.latchShut =
    latchAt s.k.cap (min s.k.cap (s.line.store + len)) s.line.latchShut := by rw [storeAdvance_eq]

theorem storeAdvance_limit : (storeAdvance len s).line.limit =
    limitAt s.k.cap (min s.k.cap (s.line.store + len)) s.line.limit s.line.range := by rw [storeAdvance_eq]

theorem storeAdvance_effective : (storeAdvance len s).line.effective =
    min (min s.line.commanded s.line.range.max) (min s.line.ceiling (storeAdvance len s).line.limit) := by rw [storeAdvance_eq]

/-- R140: the unwind output goes by the latch as the advance leaves it. -/
theorem storeAdvance_unwind : (storeAdvance len s).line.unwind = (s.line.state.moving && !(storeAdvance len s).line.latchShut &&
    s.runningRoll.isSome && s.turret.seq != .pressing) := by rw [storeAdvance_eq]

/-- R142: a feed-stall deadline that runs is set anew. -/
theorem storeAdvance_stall : (storeAdvance len s).line.stall = if s.line.stall.isSome then some s.line.clock else none := by
  rw [storeAdvance_eq]

/-- R138: the speed reference goes by the effective speed as the advance leaves it. -/
theorem storeAdvance_speedRef : (storeAdvance len s).line.speedRef =
    { s.line with effective := (storeAdvance len s).line.effective }.reference := by rw [storeAdvance_eq]

theorem storeAdvance_elsewhere : let t := storeAdvance len s
    t.turret = s.turret ∧ t.head = s.head ∧ t.web = s.web ∧ t.chest = s.chest ∧ t.orders = s.orders ∧ t.lib = s.lib ∧
    t.port = s.port ∧ t.mem = s.mem := by
  rw [storeAdvance_eq]
  exact ⟨rfl, rfl, rfl, rfl, rfl, rfl, rfl, rfl⟩

/-- An advance taken into the store leaves everything but those seven fields. -/
theorem storeAdvance_frame : { storeAdvance len s with
    line.store := s.line.store, line.latchShut := s.line.latchShut, line.unwind := s.line.unwind, line.limit := s.line.limit
    line.effective := s.line.effective, line.speedRef := s.line.speedRef, line.stall := s.line.stall } = s := by
  rw [storeAdvance_eq]

end StoreAdvance

/-- R41, R139, R153: an unwind advance by what it exhausts and whether it overfills the store. -/
theorem unwindReport_cases {len : Nat} {s : State} {k : Consts} (hk : s.line.consts = some k) :
    let t := storeAdvance len (creditRoll len s)
    let spill := k.cap < s.line.store + len
    let ends := fun w => unwindReport len s = changeWishes judgePoint w
    (s.exhausts len = false → ends (if spill then raiseHalt .overfill t else t)) ∧
    (s.exhausts len = true → s.turret.seq ≠ .pressing →
      ends (raiseHalt .tailOut (if spill then raiseHalt .overfill t else t))) ∧
    (s.exhausts len = true → s.turret.seq = .pressing →
      ends (if spill then raiseHalt .overfill { t with turret.tail := true } else { t with turret.tail := true })) := by
  have seq : (storeAdvance len (creditRoll len s)).turret.seq = s.turret.seq := by
    change (creditRoll len s).turret.seq = s.turret.seq
    rw [creditRoll]
    split <;> rfl
  intro t spill ends
  refine ⟨fun hx => ?_, fun hx hp => ?_, fun hx hp => ?_⟩
  · simp [ends, spill, t, unwindReport, markTail, hx, k_of_consts hk]
  · simp [ends, spill, t, unwindReport, markTail, hx, hp, seq, k_of_consts hk]
  · simp [ends, spill, t, unwindReport, markTail, hx, hp, seq, k_of_consts hk]

/-- R41: the RUNNING roll is credited with the advance or its remaining length, whichever is smaller. -/
theorem creditRoll_eq (len : Nat) (s : State) : creditRoll len s = (match s.runningRoll with
    | some r => s.mapRoll r.tag (fun y => { y with u := y.u + min len (y.declared - y.u) })
    | none => s) := by
  rw [creditRoll]
  cases s.runningRoll <;> rfl

/-- Settles O49: the report by what it spills and exhausts, then the store, the latch and the limit by where the store stands. -/
theorem unwindAdvanceFillsTheStore : Obligations.UnwindAdvanceFillsTheStore := by
  refine ⟨?_, ?_, ?_, ?_⟩
  · intro e len s k u credited t spill out v hk
    have taken : storeAdvance len (creditRoll len u) = t := congrArg (storeAdvance len) (creditRoll_eq len u)
    obtain ⟨left, exhausted, marked⟩ := unwindReport_cases (len := len) hk
    rw [taken] at left exhausted marked
    have reported : ∀ w, unwindReport len u = changeWishes judgePoint w → v w := by
      intro w hw
      exact congrArg (fun y => Host.Outcome.next (settle y)) hw
    have outs : out → u.exhausts len = true := (exhausts_iff u len).2
    have rests : ¬ out → u.exhausts len = false := fun h => Bool.eq_false_iff.2 (mt (exhausts_iff u len).1 h)
    have whole : ∀ w : State, ¬ spill → (if k.cap < u.line.store + len then raiseHalt .overfill w else w) = w :=
      fun w h => if_neg h
    have spilt : ∀ w : State, spill → (if k.cap < u.line.store + len then raiseHalt .overfill w else w) = raiseHalt .overfill w :=
      fun w h => if_pos h
    refine ⟨fun hs ho => ?_, fun hs ho => ?_, fun hs ho hp => ?_, fun hs ho hp => ?_, fun hs ho hp => ?_, fun hs ho hp => ?_⟩
    · exact reported _ (whole t hs ▸ left (rests ho))
    · exact reported _ (spilt t hs ▸ left (rests ho))
    · exact reported _ (whole t hs ▸ exhausted (outs ho) hp)
    · exact reported _ (spilt t hs ▸ exhausted (outs ho) hp)
    · exact reported _ ((marked (outs ho) hp).trans (congrArg (changeWishes judgePoint) (whole _ hs)))
    · exact reported _ ((marked (outs ho) hp).trans (congrArg (changeWishes judgePoint) (spilt _ hs)))
  · intro len s k hk t a
    have cap : s.k = k := k_of_consts hk
    have store : t.line.store = a := (storeAdvance_store len s).trans (by rw [cap])
    have latch : t.line.latchShut = latchAt k.cap a s.line.latchShut := (storeAdvance_latch len s).trans (by rw [cap])
    have limit : t.line.limit = limitAt k.cap a s.line.limit s.line.range := (storeAdvance_limit len s).trans (by rw [cap])
    obtain ⟨shut, opens, stays⟩ := latchAt_cases k.cap a s.line.latchShut
    obtain ⟨down, level, up⟩ := limitAt_cases k.cap a s.line.limit s.line.range
    rw [← latch] at shut opens stays
    rw [← limit] at down level up
    have closes : t.line.latchShut = true → t.line.unwind = false := by
      intro h
      rw [storeAdvance_unwind, h, Bool.not_true, Bool.and_false, Bool.false_and, Bool.false_and]
    refine ⟨store, fun h => ⟨shut h, closes (shut h)⟩, opens, stays, down, level, up, storeAdvance_effective len s,
      fun h => ?_, fun h => ?_, storeAdvance_elsewhere len s⟩
    · rw [storeAdvance_stall, h]
      rfl
    · rw [storeAdvance_stall, if_pos (Option.isSome_iff_ne_none.2 h)]
  · intro s c l runs
    have judged : ∀ shut, unwindWith shut s = runs shut := by
      intro shut
      simp only [unwindWith, runs, l, moving_eq, bne_eq_decide_ne]
    obtain ⟨shut, opens, stays⟩ := latchAt_cases c s.line.store s.line.latchShut
    refine ⟨judged _, fun h => ?_, fun h1 h2 => ?_, fun h1 h2 => ?_⟩
    · rw [judgeLatch_eq, shut h, judged]
    · rw [judgeLatch_eq, opens h1 h2, judged]
    · rw [judgeLatch_eq, stays h1 h2, judged]
  · intro len s t l
    refine ⟨?_, storeAdvance_speedRef len s, storeAdvance_frame len s⟩
    rw [storeAdvance_unwind, moving_eq, bne_eq_decide_ne]

end Sys2Proof.Machine

/-! ### Records written out to a data area (O29) -/

namespace Sys2Proof.Machine

theorem addrs_length (a n : Nat) : (addrs a n).length = n := by rw [addrs, List.length_map, List.length_range]

/-- The first addresses of a run of addresses. -/
theorem addrs_min (a len n : Nat) : addrs a (min len n) = (addrs a len).take n := by
  rw [addrs, addrs, ← List.map_take, List.take_range, Nat.min_comm]

/-- The addresses of a whole list of segments, in list order. -/
def allAddrs (gs : List (Nat × Nat)) : List Nat := (gs.map (fun g => addrs g.1 g.2)).flatten

/-- R167: the segments are filled in list order, each to its end before the next. -/
theorem spanAddrs_eq (gs : List (Nat × Nat)) (n : Nat) : spanAddrs gs n = (allAddrs gs).take n := by
  induction gs generalizing n with
  | nil => exact List.take_nil.symm
  | cons g gs ih =>
    obtain ⟨a, len⟩ := g
    have whole : allAddrs ((a, len) :: gs) = addrs a len ++ allAddrs gs := rfl
    rw [whole, List.take_append, addrs_length, spanAddrs, addrs_min, ih]

/-- A list longer than the one it is paired with may as well be cut to its length. -/
theorem zip_take_length {α β : Type} (xs : List α) (ys : List β) : (xs.take ys.length).zip ys = xs.zip ys := by
  induction xs generalizing ys with
  | nil => rw [List.take_nil]
  | cons x xs ih =>
    cases ys with
    | nil => rfl
    | cons y ys => exact congrArg ((x, y) :: ·) (ih ys)

/-- R167: bytes written out fill the data area in order, and stop at its end. -/
theorem dataBytes_eq (d : DataArea) (bs : List Byte) : dataBytes d bs = (allAddrs (dataSpans d)).zip bs := by
  rw [dataBytes, dataAddrs, spanAddrs_eq, zip_take_length]

/-- R176: the records of a list of things, whole ones as far as they fit, and the residual. -/
theorem recordBytes_map {α : Type} (d : DataArea) (size : Nat) (f : α → List Byte) (xs : List α) :
    recordBytes d size (xs.map f) =
      let fit := xs.take (dataTotal d / size)
      (dataBytes d (fit.map f).flatten, size * (xs.length - fit.length)) := by
  simp only [recordBytes, wholeRecords, List.map_take, List.length_map, List.length_take]

/-- R53, R62: the place of an order is the number of orders before it in queue sequence. -/
theorem place_of_queueSeq {s : State} {before after : List Order} {o : Order} (h : s.queueSeq = before ++ o :: after)
    (hb : ∀ y ∈ before, y.tag ≠ o.tag) : s.place o.tag = before.length := by
  have missed : before.findIdx (fun y => y.tag == o.tag) = before.length :=
    List.findIdx_eq_length.2 (fun y hy => beq_false_of_ne (hb y hy))
  have found : (o :: after).findIdx (fun y => y.tag == o.tag) = 0 := by rw [List.findIdx_cons, beq_self_eq_true]; rfl
  rw [State.place, h, List.findIdx_append, missed, if_neg (Nat.lt_irrefl _), found, Nat.zero_add]

/-! ### The requests that list records (O29) -/

section Reads

variable {no : Nat} {q : Req} {s : State}

/-- R46, R160: Read Roll with key 0. -/
theorem decideReadRoll_all (h : q.key.toNat = 0) : decideReadRoll no q s =
    let fit := s.turret.rolls.take (dataTotal q.data / 32)
    conclude no { doneParams s.rollSummary with
      data := dataBytes q.data (fit.map Roll.bytes).flatten, residual := 32 * (s.turret.rolls.length - fit.length) } s := by
  rw [decideReadRoll, if_pos h, recordBytes_map]

/-- R46: Read Roll of a tag. -/
theorem decideReadRoll_one (h : q.key.toNat ≠ 0) :
    (∀ r, s.findRoll q.key.toNat = some r → decideReadRoll no q s = conclude no (doneParams [(0, r.bytes)]) s) ∧
    (s.findRoll q.key.toNat = none → decideReadRoll no q s = conclude no (refusal .noRecord Sense.none) s) := by
  rw [decideReadRoll, if_neg h]
  exact ⟨fun r hr => by rw [hr], fun hr => by rw [hr]⟩

/-- R62: Read Order with key 0. -/
theorem decideReadOrder_all (h : q.key.toNat = 0) : decideReadOrder no q s =
    let fit := s.queueSeq.take (dataTotal q.data / 32)
    conclude no { doneParams [(0, [b8 s.orders.length]), (2, le 2 ((s.candidate.map Order.tag).getD 0))] with
      data := dataBytes q.data (fit.map (fun o => o.bytes (s.place o.tag))).flatten
      residual := 32 * (s.queueSeq.length - fit.length) } s := by
  rw [decideReadOrder, if_neg (by omega), if_pos h, recordBytes_map]

/-- R62: Read Order of a tag. -/
theorem decideReadOrder_one (h1 : 1 ≤ q.key.toNat) (h2 : q.key.toNat ≤ 65535) :
    (∀ o, s.findOrder q.key.toNat = some o →
      decideReadOrder no q s = conclude no (doneParams [(0, o.bytes (s.place q.key.toNat))]) s) ∧
    (s.findOrder q.key.toNat = none → decideReadOrder no q s = conclude no (refusal .noRecord Sense.none) s) := by
  rw [decideReadOrder, if_neg (Nat.not_lt.2 h2), if_neg (Nat.ne_of_gt h1)]
  exact ⟨fun o ho => by rw [ho], fun ho => by rw [ho]⟩

/-- R103: Read Panel with key 0. -/
theorem decideReadPanel_all (h : q.key.toNat = 0) : decideReadPanel no q s =
    let fit := s.web.panels.take (dataTotal q.data / 72)
    conclude no { doneParams [(0, s.panelSummary)] with
      data := dataBytes q.data (fit.map s.panelRecord).flatten, residual := 72 * (s.web.panels.length - fit.length) } s := by
  rw [decideReadPanel, if_neg (by omega), if_pos h, State.panelsAnswer, recordBytes_map]
  rfl

/-- R103, R167: Read Panel of an id. -/
theorem decideReadPanel_one (h1 : 1 ≤ q.key.toNat) (h2 : q.key.toNat ≤ 65535) :
    (∀ p, s.findPanel q.key.toNat = some p → decideReadPanel no q s = conclude no { doneParams [] with
      data := dataBytes q.data (s.panelRecord p), residual := 72 - dataTotal q.data } s) ∧
    (s.findPanel q.key.toNat = none → decideReadPanel no q s = conclude no (refusal .noRecord Sense.none) s) := by
  rw [decideReadPanel, if_neg (Nat.not_lt.2 h2), if_neg (Nat.ne_of_gt h1)]
  refine ⟨fun p hp => ?_, fun hp => by rw [hp]⟩
  rw [hp, ← panelRecord_length s p]
  rfl

/-- R104: Read Web Map. -/
theorem decideReadMap_eq : decideReadMap no q s =
    let fit := s.web.segs.take (dataTotal q.data / 40)
    conclude no { doneParams [(0, s.mapSummary)] with
      data := dataBytes q.data (fit.map Segment.bytes).flatten, residual := 40 * (s.web.segs.length - fit.length) } s := by
  rw [decideReadMap, recordBytes_map]

/-- R145: Read Line Status, with the constants in force where they are asked for. -/
theorem decideReadStatus_eq {flag : Bool} {k : Consts} (h : s.line.consts = some k ∨ flag = false) :
    decideReadStatus no q flag s =
      let fields := s.headFields ++ (if flag then constsFields k else [])
      let fit := fieldsFit (dataTotal q.data) fields
      conclude no { doneParams [(0, s.lineStatus)] with
        data := dataBytes q.data fit.flatten, residual := fields.flatten.length - fit.flatten.length } s := by
  rcases h with hk | rfl
  · rw [decideReadStatus, k_of_consts hk]
    rfl
  · rfl

end Reads

/-- Settles O29: each read by its decision, the data area by its segments, and the place of an order by those before it. -/
theorem readsReturnTheirRecords : Obligations.ReadsReturnTheirRecords := by
  refine ⟨?_, ?_, ?_, ?_, ?_, ?_, ?_, fun s before after o => place_of_queueSeq⟩
  · intro e q s x hd u fit
    have answered : ∀ t, decideReadRoll x.no q u = t → exec (.readRoll e q) s = .next t :=
      fun t ht => exec_of_dispatches_readsOnly hd rfl rfl ht
    have tagged : q.key ≠ 0 → q.key.toNat ≠ 0 := fun h h0 => h (BitVec.eq_of_toNat_eq h0)
    exact ⟨fun h => answered _ (decideReadRoll_all (congrArg BitVec.toNat h)),
      fun r h hr => answered _ ((decideReadRoll_one (tagged h)).1 r hr),
      fun h hr => answered _ ((decideReadRoll_one (tagged h)).2 hr)⟩
  · intro e q s x hd u tag fit
    have answered : ∀ t, decideReadOrder x.no q u = t → exec (.readOrder e q) s = .next t :=
      fun t ht => exec_of_dispatches_readsOnly hd rfl rfl ht
    exact ⟨fun h => answered _ (if_pos h), fun h => answered _ (decideReadOrder_all h),
      fun o h1 h2 ho => answered _ ((decideReadOrder_one h1 h2).1 o ho),
      fun h1 h2 ho => answered _ ((decideReadOrder_one h1 h2).2 ho)⟩
  · intro e q s x hd u id count fit
    have answered : ∀ t, decideReadPanel x.no q u = t → exec (.readPanel e q) s = .next t :=
      fun t ht => exec_of_dispatches_readsOnly hd rfl rfl ht
    exact ⟨fun h => answered _ (if_pos h), fun h => answered _ (decideReadPanel_all h),
      fun p h1 h2 hp => answered _ ((decideReadPanel_one h1 h2).1 p hp),
      fun h1 h2 hp => answered _ ((decideReadPanel_one h1 h2).2 hp)⟩
  · intro e q s x hd u fit
    exact exec_of_dispatches_readsOnly hd rfl rfl decideReadMap_eq
  · intro e q cells s x hd u p records fit
    exact exec_of_dispatches_readsOnly hd rfl rfl rfl
  · intro e q flag s x k hd u fields fit hk
    exact exec_of_dispatches_readsOnly hd rfl rfl (decideReadStatus_eq hk)
  · intro a n gs bs cells
    have spans : dataSpans (.segmented gs) = gs.map (fun g => (g.addr.toNat, g.len.toNat)) := rfl
    refine ⟨Nat.add_zero _, ?_, ?_, ?_⟩
    · rw [dataTotal, spans, List.map_map]
      rfl
    · rw [dataBytes_eq, dataSpans, allAddrs, List.map_singleton, List.flatten_singleton]
      rfl
    · rw [dataBytes_eq, allAddrs, spans, List.map_map]
      rfl

end Sys2Proof.Machine

/-! ### What an order is tested against (O25, O27) -/

namespace Sys2Proof.Machine

/-- R27, R51, R54: the tests of an order against a page, in their order. -/
theorem orderTest_cases (s : State) (p : Page) (o : Order) :
    let m := p.measure o.size s.runningK
    let fits := ∀ r, o.marks = some r → r.fits m.t s.k.gap = true
    (∀ g, p.gradeCheck o.size = some g → s.orderTest p o = some (refusal .gradeRange (gradeSense g o.size (some o.tag)))) ∧
    (p.gradeCheck o.size = none → m.ok = false → s.orderTest p o = some (refusal .fit { fitSense m with key := some o.tag })) ∧
    (∀ r, p.gradeCheck o.size = none → m.ok = true → o.marks = some r → r.fits m.t s.k.gap = false →
      s.orderTest p o = some (refusal .fit ⟨0, some o.tag, [natVal m.t, natVal s.k.gap, natVal (r.mult * r.rep)]⟩)) ∧
    (p.gradeCheck o.size = none → m.ok = true → fits → s.orderTest p o = none) := by
  intro m fits
  refine ⟨fun g hg => ?_, fun hg hm => ?_, fun r hg hm hr hf => ?_, fun hg hm hf => ?_⟩
  · rw [State.orderTest, hg]
  · rw [State.orderTest, hg]
    exact if_pos (Bool.eq_false_iff.1 hm)
  · rw [State.orderTest, hg]
    refine (if_neg (not_not.2 hm)).trans ?_
    rw [hr]
    exact if_neg (Bool.eq_false_iff.1 hf)
  · rw [State.orderTest, hg]
    refine (if_neg (not_not.2 hm)).trans ?_
    cases hr : o.marks with
    | none => rfl
    | some r => exact if_pos (hf r hr)

/-! ### Place Order (O25) -/

theorem orderRange_within {field v lo hi : Nat} (h : lo ≤ v ∧ v ≤ hi) : orderRange field v lo hi = none := if_pos h

theorem orderRange_outside {field v lo hi : Nat} (h : ¬ (lo ≤ v ∧ v ≤ hi)) :
    orderRange field v lo hi = some (badField field [natVal v]) := if_neg h

theorem orderRange_eq_none {field v lo hi : Nat} : orderRange field v lo hi = none ↔ lo ≤ v ∧ v ≤ hi := by
  simp [orderRange]

theorem orderRange_code {field v lo hi : Nat} {r : Answer} (h : orderRange field v lo hi = some r) : r.code = .badParam := by
  rw [orderRange] at h
  split at h
  · cases h
  · cases h
    rfl

/-- R51: the ranges of the registration fields of a MARKED order. -/
def marksInRange (a : OrderArgs) : Prop :=
  (1 ≤ a.mult.toNat ∧ a.mult.toNat ≤ 12) ∧ a.offset.toNat ≤ 5000 ∧ 500 ≤ a.rep.toNat ∧ a.rep.toNat ≤ 20000

/-- R51, step 1: the values that pass. -/
theorem orderFail_eq_none {q : Req} {a : OrderArgs} : orderFail q a = none ↔
    (1 ≤ q.key.toNat ∧ q.key.toNat ≤ 65535) ∧ a.pattern.toNat ≤ 47 ∧ a.size.toNat ≤ 11 ∧
      (1 ≤ a.cls.toNat ∧ a.cls.toNat ≤ 2) ∧ a.reg.toNat ≤ 1 ∧ (1 ≤ a.n.toNat ∧ a.n.toNat ≤ 999) ∧ a.remakes.toNat ≤ 15 ∧
      (a.reg.toNat = 1 → marksInRange a) := by
  by_cases marked : a.reg.toNat = 1 <;>
    simp [orderFail, marksInRange, orderRange_eq_none, List.findSome?_eq_none_iff, marked]

/-- R51, step 1: whichever check fails, the refusal is a BAD_PARAM. -/
theorem orderFail_code {q : Req} {a : OrderArgs} {r : Answer} (h : orderFail q a = some r) : r.code = .badParam := by
  obtain ⟨check, hmem, hr⟩ := List.exists_of_findSome?_eq_some h
  have ranged : check = none ∨ ∃ field v lo hi, check = orderRange field v lo hi := by
    simp only [List.mem_cons, List.not_mem_nil, or_false] at hmem
    rcases hmem with rfl | rfl | rfl | rfl | rfl | rfl | rfl | rfl | rfl | rfl
    iterate 7 exact .inr ⟨_, _, _, _, rfl⟩
    all_goals
      split
      · exact .inr ⟨_, _, _, _, rfl⟩
      · exact .inl rfl
  rcases ranged with rfl | ⟨field, v, lo, hi, rfl⟩
  · cases hr
  · exact orderRange_code hr

section FirstFailure

variable {field v lo hi : Nat} {l : List (Option Answer)} {r : Answer}

/-- A check that passes leaves the answer to those behind it. -/
theorem firstFailure_skip (h : lo ≤ v ∧ v ≤ hi) (rest : l.findSome? id = some r) :
    (orderRange field v lo hi :: l).findSome? id = some r := by
  rw [orderRange_within h]
  exact rest

/-- A check that fails ends the search. -/
theorem firstFailure_stop (h : ¬ (lo ≤ v ∧ v ≤ hi)) :
    (orderRange field v lo hi :: l).findSome? id = some (badField field [natVal v]) := by
  rw [orderRange_outside h]
  rfl

end FirstFailure

/-- R51, step 1: with several values out of range, the first in the sequence is named (log entry 70). -/
theorem orderFail_first (q : Req) (a : OrderArgs) :
    let bad := fun (field v : Nat) => orderFail q a = some (badField field [natVal v])
    let key := 1 ≤ q.key.toNat ∧ q.key.toNat ≤ 65535
    let first := key ∧ a.pattern.toNat ≤ 47 ∧ a.size.toNat ≤ 11
    let codes := first ∧ (1 ≤ a.cls.toNat ∧ a.cls.toNat ≤ 2) ∧ a.reg.toNat ≤ 1
    let counts := codes ∧ (1 ≤ a.n.toNat ∧ a.n.toNat ≤ 999) ∧ a.remakes.toNat ≤ 15
    let mult := 1 ≤ a.mult.toNat ∧ a.mult.toNat ≤ 12
    (¬ key → bad keyField q.key.toNat) ∧
    (key → 47 < a.pattern.toNat → bad (fieldId 0 0) a.pattern.toNat) ∧
    (key → a.pattern.toNat ≤ 47 → 11 < a.size.toNat → bad (fieldId 0 1) a.size.toNat) ∧
    (first → ¬ (1 ≤ a.cls.toNat ∧ a.cls.toNat ≤ 2) → bad (fieldId 0 2) a.cls.toNat) ∧
    (first → (1 ≤ a.cls.toNat ∧ a.cls.toNat ≤ 2) → 1 < a.reg.toNat → bad (fieldId 0 3) a.reg.toNat) ∧
    (codes → ¬ (1 ≤ a.n.toNat ∧ a.n.toNat ≤ 999) → bad (fieldId 0 4) a.n.toNat) ∧
    (codes → (1 ≤ a.n.toNat ∧ a.n.toNat ≤ 999) → 15 < a.remakes.toNat → bad (fieldId 0 6) a.remakes.toNat) ∧
    (counts → a.reg.toNat = 1 → ¬ mult → bad (fieldId 0 7) a.mult.toNat) ∧
    (counts → a.reg.toNat = 1 → mult → 5000 < a.offset.toNat → bad (fieldId 0 8) a.offset.toNat) ∧
    (counts → a.reg.toNat = 1 → mult → a.offset.toNat ≤ 5000 → ¬ (500 ≤ a.rep.toNat ∧ a.rep.toNat ≤ 20000) →
      bad (fieldId 0 10) a.rep.toNat) := by
  intro bad key first codes counts mult
  have upTo : ∀ {v hi : Nat}, v ≤ hi → 0 ≤ v ∧ v ≤ hi := fun h => ⟨Nat.zero_le _, h⟩
  have above : ∀ {v hi : Nat}, hi < v → ¬ (0 ≤ v ∧ v ≤ hi) := fun h w => Nat.not_le.2 h w.2
  have past_first : first → ∀ {rest r}, List.findSome? id rest = some r →
      List.findSome? id (orderRange keyField q.key.toNat 1 65535 :: orderRange (fieldId 0 0x00) a.pattern.toNat 0 47 ::
        orderRange (fieldId 0 0x01) a.size.toNat 0 11 :: rest) = some r :=
    fun ⟨hk, hp, hs⟩ _ _ h => firstFailure_skip hk (firstFailure_skip (upTo hp) (firstFailure_skip (upTo hs) h))
  refine ⟨firstFailure_stop, fun hk h => ?_, fun hk hp h => ?_, fun hf h => ?_, fun hf hc h => ?_, ?_, ?_, ?_, ?_, ?_⟩
  · exact firstFailure_skip hk (firstFailure_stop (above h))
  · exact firstFailure_skip hk (firstFailure_skip (upTo hp) (firstFailure_stop (above h)))
  · exact past_first hf (firstFailure_stop h)
  · exact past_first hf (firstFailure_skip hc (firstFailure_stop (above h)))
  · rintro ⟨hf, hc, hr⟩ h
    exact past_first hf (firstFailure_skip hc (firstFailure_skip (upTo hr) (firstFailure_stop h)))
  · rintro ⟨hf, hc, hr⟩ hn h
    exact past_first hf (firstFailure_skip hc (firstFailure_skip (upTo hr) (firstFailure_skip hn (firstFailure_stop (above h)))))
  all_goals
    rintro ⟨⟨hf, hc, hr⟩, hn, hm⟩ hreg
    have past_counts : ∀ {rest r}, List.findSome? id rest = some r →
        List.findSome? id (orderRange keyField q.key.toNat 1 65535 :: orderRange (fieldId 0 0x00) a.pattern.toNat 0 47 ::
          orderRange (fieldId 0 0x01) a.size.toNat 0 11 :: orderRange (fieldId 0 0x02) a.cls.toNat 1 2 ::
          orderRange (fieldId 0 0x03) a.reg.toNat 0 1 :: orderRange (fieldId 0 0x04) a.n.toNat 1 999 ::
          orderRange (fieldId 0 0x06) a.remakes.toNat 0 15 :: rest) = some r := fun h =>
      past_first hf (firstFailure_skip hc (firstFailure_skip (upTo hr) (firstFailure_skip hn (firstFailure_skip (upTo hm) h))))
    have marked : (a.reg.toNat == 1) = true := beq_iff_eq.2 hreg
    simp only [bad, orderFail, marked, if_true]
  · exact fun h => past_counts (firstFailure_stop h)
  · exact fun hu h => past_counts (firstFailure_skip hu (firstFailure_stop (above h)))
  · exact fun hu ho h => past_counts (firstFailure_skip hu (firstFailure_skip (upTo ho) (firstFailure_stop h)))

/-- R52: the live panel named is the oldest that carries the tag. -/
theorem carrier_oldest {s : State} {tag : Nat} {older newer : List Panel} {p : Panel} (hs : s.web.panels = older ++ p :: newer)
    (ht : p.order = tag) (hp : p.state ≠ .exited) (ho : ∀ y ∈ older, y.order = tag → y.state = .exited) :
    s.carrier tag = some p := by
  have earlier : older.find? (fun y => y.order == tag && y.state != .exited) = none := by
    refine List.find?_eq_none.2 fun y hy => ?_
    simpa using ho y hy
  rw [State.carrier, hs, List.find?_append, earlier, Option.none_or]
  exact List.find?_cons_of_pos (by simp [ht, hp])

theorem carrier_eq_none {s : State} {tag : Nat} (h : ∀ p ∈ s.web.panels, p.order = tag → p.state = .exited) :
    s.carrier tag = none := by
  refine List.find?_eq_none.2 fun p hp => ?_
  simpa using h p hp

/-- R52, R51, steps 6 to 9: a live panel, a record, and a full queue refuse a placement before its tests against the page. -/
theorem placeFail_cases (s : State) (p : Page) (o : Order) :
    (∀ z, s.carrier o.tag = some z → s.placeFail p o = some (refusal .duplicate (senseVals [natVal z.id]))) ∧
    (∀ y, s.carrier o.tag = none → s.findOrder o.tag = some y → s.placeFail p o = some (refusal .duplicate Sense.none)) ∧
    (s.findOrder o.tag = none → s.carrier o.tag = none → 32 ≤ s.orders.length → s.placeFail p o =
      some (refusal .tableFull (senseVals [natVal (s.orders.countP (fun x => x.state == .awaitingExit))]))) ∧
    (s.findOrder o.tag = none → s.carrier o.tag = none → s.orders.length < 32 → s.placeFail p o = s.orderTest p o) := by
  refine ⟨fun z hz => ?_, fun y hc hy => ?_, fun hf hc hl => ?_, fun hf hc hl => ?_⟩
  · rw [State.placeFail, hz]
  · rw [State.placeFail, hc, hy]
    rfl
  · rw [State.placeFail, hc, hf]
    exact if_pos hl
  · rw [State.placeFail, hc, hf]
    exact if_neg (Nat.not_le.2 hl)

section PlaceDecision

variable {no : Nat} {q : Req} {a : OrderArgs} {s : State}

/-- R51, steps 1 and 2: the values, and the line constants for a MARKED order. -/
theorem decidePlace_early :
    (∀ r, orderFail q a = some r → decidePlace no q a s = conclude no r s) ∧
    (orderFail q a = none → a.reg.toNat = 1 → s.line.consts = none →
      decidePlace no q a s = conclude no (refusal .wrongState Sense.none) s) := by
  refine ⟨fun r hr => ?_, fun hv hm hc => ?_⟩
  · rw [decidePlace, hr]
  · rw [decidePlace, hv]
    exact if_pos ⟨hm, Option.isNone_iff_eq_none.2 hc⟩

variable (hv : orderFail q a = none) (hc : a.reg.toNat = 1 → s.line.consts ≠ none)
include hv hc

/-- R51, steps 3 and 4: the slot. -/
theorem decidePlace_slot :
    ((s.slot a.pattern.toNat).busy = true → decidePlace no q a s = holdWaiting no (.slot a.pattern.toNat) s) ∧
    ((s.slot a.pattern.toNat).busy = false → (s.slot a.pattern.toNat).state = .free →
      decidePlace no q a s = conclude no (refusal .noRecord ⟨0, some a.pattern.toNat, []⟩) s) ∧
    ((s.slot a.pattern.toNat).busy = false → (s.slot a.pattern.toNat).state = .retiring →
      decidePlace no q a s = conclude no (refusal .wrongState ⟨0, some a.pattern.toNat, []⟩) s) ∧
    (∀ p, (s.slot a.pattern.toNat).busy = false → (s.slot a.pattern.toNat).state = .active →
      (s.slot a.pattern.toNat).nextPage = some p →
      (∀ r, s.placeFail p (newOrder q a none) = some r → decidePlace no q a s = conclude no r s) ∧
      (s.placeFail p (newOrder q a none) = none → decidePlace no q a s =
        acceptOrder no q (newOrder q a none) a.notify (p.measure a.size.toNat s.runningK) s)) := by
  have consts : ¬ (a.reg.toNat = 1 ∧ s.line.consts.isNone = true) := fun h => hc h.1 (Option.isNone_iff_eq_none.1 h.2)
  simp only [decidePlace, hv, if_neg consts]
  refine ⟨fun hb => if_pos hb, fun hb hs => ?_, fun hb hs => ?_, fun p hb hs hp => ?_⟩
  · rw [hb, hs]
    rfl
  · rw [hb, hs]
    rfl
  · simp only [hb, hs, hp, Bool.false_eq_true, if_false]
    exact ⟨fun r hr => by rw [hr], fun hr => by rw [hr]; rfl⟩

end PlaceDecision

/-- R53, R61: with notify, and figures that can be written, the request becomes the order's watch; else it completes. -/
theorem acceptOrder_cases (no : Nat) (q : Req) (o : Order) (notify : Bool) (m : Measured) (s : State) :
    let v := addOrder o s
    let w := paramWrites q.block.toNat (placeAnswer v o.tag m).params
    ((notify = true → v.storeOk w = false) →
      acceptOrder no q o notify m s = reportCandidate (conclude no (placeAnswer v o.tag m) v)) ∧
    (notify = true → v.storeOk w = true → acceptOrder no q o notify m s = reportCandidate
      (holdRunning no ((v.store w).mapOrder o.tag (fun x => { x with watch := some no })))) := by
  intro v w
  refine ⟨fun h => congrArg reportCandidate (if_neg fun watches => ?_), fun hn hw => congrArg reportCandidate (if_pos ?_)⟩
  · obtain ⟨hn, hw⟩ := (Bool.and_eq_true _ _).mp watches
    exact Bool.false_ne_true ((h hn).symm.trans hw)
  · exact (Bool.and_eq_true _ _).mpr ⟨hn, hw⟩

/-- Settles O25: the checks of a placement in their order, then the placement with its watch or its answer. -/
theorem placeOrderDecided : Obligations.PlaceOrderDecided := by
  refine ⟨?_, ?_, fun q a => ⟨orderFail_eq_none, fun r => orderFail_code, orderFail_first q a⟩,
    fun tag s => ⟨fun older p newer hs ht hp ho => carrier_oldest hs ht hp ho, carrier_eq_none⟩⟩
  · intro e q a s x p hd u n y o v m place figures w refused fits hv hc hb hs hp hf hl hn
    have answered : ∀ t, decidePlace x.no q a u = t → exec (.placeOrder e q a) s = .next (settle t) :=
      fun t ht => exec_of_dispatches hd rfl rfl ht
    obtain ⟨fails, passes⟩ := (decidePlace_slot (no := x.no) hv hc).2.2.2 p hb hs hp
    have tested : u.placeFail p o = u.orderTest p o := (placeFail_cases u p o).2.2.2 hf hl hn
    obtain ⟨grade, limits, registration, fit⟩ := orderTest_cases u p o
    obtain ⟨completes, watches⟩ := acceptOrder_cases x.no q o a.notify m u
    refine ⟨fun g hg => answered _ (fails _ (tested.trans (grade g hg))),
      fun hg hm => answered _ (fails _ (tested.trans (limits hg hm))),
      fun r hg hm hr hx => answered _ (fails _ (tested.trans (registration r hg hm hr hx))),
      fun hg hm hx hw => answered _ ((passes (tested.trans (fit hg hm hx))).trans (completes hw)),
      fun hg hm hx hnotify hw => answered _ ((passes (tested.trans (fit hg hm hx))).trans (watches hnotify hw))⟩
  · intro e q a s x hd u y refused
    have answered : ∀ t, decidePlace x.no q a u = t → exec (.placeOrder e q a) s = .next (settle t) :=
      fun t ht => exec_of_dispatches hd rfl rfl ht
    obtain ⟨values, consts⟩ := decidePlace_early (no := x.no) (q := q) (a := a) (s := u)
    refine ⟨fun r hr => answered _ (values r hr), fun hv hm hc => answered _ (consts hv hm hc), fun hv hc => ?_⟩
    obtain ⟨waits, free, retiring, page⟩ := decidePlace_slot (no := x.no) hv hc
    refine ⟨fun hb => answered _ (waits hb), fun hb hs => answered _ (free hb hs), fun hb hs => answered _ (retiring hb hs),
      fun p hb hs hp => ?_⟩
    obtain ⟨carried, recorded, full, _⟩ := placeFail_cases u p (newOrder q a none)
    have fails := (page p hb hs hp).1
    exact ⟨fun z hz => answered _ (fails _ (carried z hz)), fun o hf ho => answered _ (fails _ (recorded o hf ho)),
      fun ho hf hn => answered _ (fails _ (full ho hf hn))⟩

end Sys2Proof.Machine

/-! ### Completions posted in the middle of an event (R170, R171, R172) -/

namespace Sys2Proof.Machine

/-- What a completion can do (R170, R171): it writes memory and the port's records, and a ring fault met at its post drops the held
requests (R172). -/
def PostsOnly (s t : State) : Prop :=
  ∃ mem port, t = { s with mem := mem, port := port } ∨ t = { dropRequests s with mem := mem, port := port }

theorem PostsOnly.refl (s : State) : PostsOnly s s := ⟨s.mem, s.port, .inl rfl⟩

/-- Memory and the port's records written before the post. -/
theorem PostsOnly.after {s t : State} {mem : Memory} {port : Port} (h : PostsOnly { s with mem := mem, port := port } t) :
    PostsOnly s t := h

theorem ringFault_postsOnly (ret : Bool) (slot : Nat) (s : State) : PostsOnly s (ringFault ret slot s) := ⟨_, _, .inr rfl⟩

theorem readReturn_postsOnly (s : State) : PostsOnly s (readReturn s) := by
  rcases readReturn_cases s with e | ⟨_, i, e⟩ <;> rw [e]
  · exact PostsOnly.refl s
  · exact ringFault_postsOnly true i s

/-- R171: a post moves the port's records on. -/
theorem posted_port (it : PostItem) (r : Ring) (s : State) : ∃ port, posted it r s = { s with port := port } := by
  rw [posted]
  cases it.last <;> exact ⟨_, rfl⟩

theorem postItems_postsOnly (l : List PostItem) (s : State) : PostsOnly s (postItems l s) := by
  induction l generalizing s with
  | nil => exact .after (readReturn_postsOnly _)
  | cons it rest ih =>
    unfold postItems
    split
    next r _ _ =>
      simp only
      split
      · split
        · split
          · obtain ⟨port, e⟩ := posted_port it r (s.store (slotBytes (r.addr + 8 * r.pos) it))
            rw [e]
            exact .after (ih _)
          · exact .after (ringFault_postsOnly _ _ _)
        · exact ⟨_, _, .inl rfl⟩
      · exact ringFault_postsOnly _ _ _
    next => exact PostsOnly.refl s

theorem enqueue_postsOnly (no : Nat) (items : List PostItem) (s : State) : PostsOnly s (enqueue no items s) := by
  unfold enqueue
  split
  · exact .after (postItems_postsOnly _ _)
  · exact PostsOnly.refl s

/-- R170: the writes of a completion reach memory alone. -/
theorem writeAnswer_mem (q : Req) (a : Answer) (s : State) : ∃ mem, writeAnswer q a s = { s with mem := mem } := by
  unfold writeAnswer
  simp only
  split <;> exact ⟨_, rfl⟩

theorem conclude_postsOnly (no : Nat) (a : Answer) (s : State) : PostsOnly s (conclude no a s) := by
  unfold conclude
  split
  · exact PostsOnly.refl s
  · split
    · exact PostsOnly.refl s
    next q _ _ =>
      obtain ⟨mem, e⟩ := writeAnswer_mem q a s
      rw [concludeWith, e]
      exact .after (enqueue_postsOnly _ _ _)

theorem concludeWatch_postsOnly (w : Option Nat) (a : Answer) (s : State) : PostsOnly s (concludeWatch w a s) := by
  cases w with
  | none => exact PostsOnly.refl s
  | some no => exact conclude_postsOnly no a s

/-- A completion takes no order out of the queue. -/
theorem PostsOnly.orders_length {s t : State} (h : PostsOnly s t) : t.orders.length = s.orders.length := by
  obtain ⟨mem, port, rfl | rfl⟩ := h
  · rfl
  · exact List.length_map ..

/-! ### Orders that leave the queue (O26, O27) -/

/-- R16: a slot that a retirement has emptied. -/
theorem freedSlot_modify (n : Nat) (l : List Slot) :
    (l.modify n (fun y => { y with uses := y.uses - 1 })).modify n freedSlot = l.modify n freedSlot := List.modify_modify_eq ..

/-- R4, R16: an order record that leaves takes its use of the slot with it; the last use of a RETIRING slot frees it. -/
theorem removeOrder_cases (o : Order) (s : State) :
    let rest := s.orders.filter (fun z => z.tag != o.tag)
    (¬ ((s.slot o.pattern).state = .retiring ∧ (s.slot o.pattern).uses ≤ 1) → removeOrder o s =
      { s with orders := rest, lib.slots := s.lib.slots.modify o.pattern (fun z => { z with uses := z.uses - 1 }) }) ∧
    ((s.slot o.pattern).state = .retiring → (s.slot o.pattern).uses ≤ 1 → removeOrder o s =
      concludeWatch (s.slot o.pattern).watch done
        { s with orders := rest, lib.slots := s.lib.slots.modify o.pattern freedSlot }) := by
  refine ⟨fun h => if_neg h, fun hs hu => (if_pos ⟨hs, hu⟩).trans ?_⟩
  simp only [State.mapSlot, freedSlot_modify]
  rfl

/-- R4: the record of the order is out of the queue, whatever its slot does. -/
theorem removeOrder_length (o : Order) (s : State) :
    (removeOrder o s).orders.length = (s.orders.filter (fun z => z.tag != o.tag)).length := by
  obtain ⟨stays, freed⟩ := removeOrder_cases o s
  by_cases h : (s.slot o.pattern).state = .retiring ∧ (s.slot o.pattern).uses ≤ 1
  · rw [freed h.1 h.2, (concludeWatch_postsOnly _ _ _).orders_length]
  · rw [stays h]

/-! ### Cancel Order (O26) -/

theorem findOrder_tag {s : State} {tag : Nat} {o : Order} (h : s.findOrder tag = some o) : o.tag = tag := by
  simpa using List.find?_some h

/-- R59: a panel of the order is FORMING when the head's panel names it. -/
theorem panelForming_iff (tag : Nat) (s : State) : s.panelForming tag = true ↔
    ∃ id, s.head.panel = some id ∧ ((s.findPanel id).map Panel.order).getD 0 = tag := by
  simp [State.panelForming, State.panelOrder, Option.any_eq_true]

/-- R59: what a cancel does to the order of a tag, and the detail it reports, by the order's state. -/
theorem cancelOrder_cases {o : Order} {tag : Nat} (ht : o.tag = tag) (s : State) :
    (o.state = .queued → ∀ cut, cancelOrder o cut s = (concludeWatch o.watch (endAnswer o true) (removeOrder o s), 1)) ∧
    (o.state = .forming → s.panelForming tag = true → cancelOrder o false s = (markCancel tag s, 2)) ∧
    (o.state = .forming → s.panelForming tag = true → cancelOrder o true s = (cutByRequest (markCancel tag s), 3)) ∧
    (o.state = .forming → s.panelForming tag = false → ∀ cut, cancelOrder o cut s = (releaseOrder tag (markCancel tag s), 4)) ∧
    (o.state = .awaitingExit → ∀ cut, cancelOrder o cut s = (markCancel tag s, 5)) := by
  subst ht
  refine ⟨fun hs cut => ?_, fun hs hp => ?_, fun hs hp => ?_, fun hs hp cut => ?_, fun hs cut => ?_⟩ <;> rw [cancelOrder, hs]
  · simp only [hp, if_true, Bool.false_eq_true, if_false]
  · simp only [hp, if_true]
  · simp only [hp, Bool.false_eq_true, if_false]

/-- R59: Cancel Order of a tag that an order holds. -/
theorem decideCancel_found {no : Nat} {q : Req} {cut : Bool} {s t : State} {o : Order} {d : Nat} (h1 : 1 ≤ q.key.toNat)
    (h2 : q.key.toNat ≤ 65535) (ho : s.findOrder q.key.toNat = some o) (hc : cancelOrder o cut s = (t, d)) :
    decideCancel no q cut s = conclude no (doneDetail d) t := by
  have inRange : ¬ (q.key.toNat = 0 ∨ 65535 < q.key.toNat) := by omega
  simp only [decideCancel, if_neg inRange, ho, hc]

/-- Settles O26: the order's state decides what the cancel does; the record that leaves by its slot; the panel by the head's. -/
theorem cancelOrderByState : Obligations.CancelOrderByState := by
  refine ⟨?_, removeOrder_cases, panelForming_iff⟩
  intro e q cut s x o hd u tag marked answers h1 h2 ho
  have answered : ∀ d t, cancelOrder o cut u = (t, d) → answers d t :=
    fun d t hc => exec_of_dispatches hd rfl rfl (decideCancel_found h1 h2 ho hc)
  obtain ⟨queued, forming, cuts, between, awaiting⟩ := cancelOrder_cases (findOrder_tag ho) u
  refine ⟨fun hs => answered _ _ (queued hs cut), fun hs hp hcut => answered _ _ ?_, fun hs hp hcut => answered _ _ ?_,
    fun hs hp => answered _ _ (between hs hp cut), fun hs => answered _ _ (awaiting hs cut)⟩
  · rw [hcut]
    exact forming hs hp
  · rw [hcut]
    exact cuts hs hp

/-! ### The queue asked for an order (O27) -/

theorem candidate_mem {s : State} {o : Order} (h : s.candidate = some o) : o ∈ s.orders := by
  unfold State.candidate at h
  split at h
  next z hz =>
    cases h
    exact List.mem_of_find?_eq_some hz
  next => exact List.mem_of_find?_eq_some h

/-- R55: a candidate that fails leaves the queue shorter. -/
theorem failBinding_length {s : State} {o : Order} (ho : o ∈ s.orders) (a : Answer) :
    (failBinding o a s).orders.length < s.orders.length := by
  rw [failBinding, (concludeWatch_postsOnly _ _ _).orders_length, removeOrder_length]
  exact List.length_filter_lt_length_iff_exists.2 ⟨o, ho, by simp⟩

section Asking

variable {n : Nat} {s : State} {o : Order} (hc : s.candidate = some o)
include hc

/-- R54, R55: a candidate with a live page is tested against it. -/
theorem askOrder_tested {p : Page}
    (hp : ((flipSlot o.pattern s).slot o.pattern).page (((flipSlot o.pattern s).slot o.pattern).live.getD .a) = some p) :
    (∀ a, (flipSlot o.pattern s).orderTest p o = some a → askOrder (n + 1) s = askOrder n (failBinding o a (flipSlot o.pattern s))) ∧
    ((flipSlot o.pattern s).orderTest p o = none → askOrder (n + 1) s =
      bindOrder o (((flipSlot o.pattern s).slot o.pattern).live.getD .a) (flipSlot o.pattern s)) := by
  refine ⟨fun a ha => ?_, fun ha => ?_⟩
  · simp only [askOrder, hc, hp, ha]
  · simp only [askOrder, hc, hp, ha]

/-- R54, R55: the candidate binds or leaves the queue. -/
theorem askOrder_succ : (∃ letter t, askOrder (n + 1) s = bindOrder o letter t) ∨
    ∃ a, askOrder (n + 1) s = askOrder n (failBinding o a (flipSlot o.pattern s)) := by
  simp only [askOrder, hc]
  split
  · exact .inr ⟨_, rfl⟩
  · split
    · exact .inr ⟨_, rfl⟩
    · exact .inl ⟨_, _, rfl⟩

end Asking

/-- R54, R55: asked as often as it has orders, the queue ends with an order bound or no candidate left. -/
theorem askOrder_ends (n : Nat) (s : State) (h : s.orders.length ≤ n) :
    (askOrder n s).head.bound ≠ none ∨ (askOrder n s).candidate = none := by
  induction n generalizing s with
  | zero =>
    have empty : s.orders = [] := List.length_eq_zero_iff.1 (Nat.le_zero.1 h)
    right
    rw [askOrder, State.candidate, empty]
    rfl
  | succ n ih =>
    cases hc : s.candidate with
    | none =>
      right
      rw [askOrder, hc]
      exact hc
    | some o =>
      rcases askOrder_succ (n := n) hc with ⟨letter, t, e⟩ | ⟨a, e⟩ <;> rw [e]
      · exact .inl nofun
      · have shorter := failBinding_length (s := flipSlot o.pattern s) (candidate_mem hc) a
        have same : (flipSlot o.pattern s).orders.length = s.orders.length := rfl
        exact ih _ (by omega)

/-- R50: the RUSH list before the NORMAL list. -/
theorem candidate_cases (s : State) :
    let queued := fun (c : OrderClass) => s.orders.find? (fun o => o.state == .queued && o.cls == c)
    (∀ o, queued .rush = some o → s.candidate = some o) ∧ (queued .rush = none → s.candidate = queued .normal) := by
  intro queued
  refine ⟨fun o h => ?_, fun h => ?_⟩ <;> simp only [queued] at h ⊢
  · rw [State.candidate, h]
  · rw [State.candidate, h]

/-- R27: the k of the RUNNING roll's class. -/
theorem runningK_cases (s : State) : (s.runningRoll = none → s.runningK = 0) ∧
    (∀ r f, s.runningRoll = some r → s.fibre r.cls = some f → s.runningK = f.k) := by
  refine ⟨fun h => ?_, fun r f h hf => ?_⟩
  · rw [State.runningK, h]
  · rw [State.runningK, h]
    simp only [State.allowance, hf]
    rfl

theorem keepRun_eq_filter (r : Option Run) :
    keepRun [.gap, .guard, .splice] r = r.filter (fun x => x.purpose = .gap ∨ x.purpose = .guard ∨ x.purpose = .splice) := by
  cases r <;> simp [keepRun, Option.filter]

/-- Settles O27: the tests decide whether the candidate binds or leaves; by the length of the queue the asking ends. -/
theorem candidatesBindInTurn : Obligations.CandidatesBindInTurn := by
  refine ⟨candidate_cases, ?_, fun s _ => askOrder_ends _ s le_rfl, runningK_cases, fun r t gap => decide_eq_true_iff⟩
  intro n s o hc t y letter p hp m fails fits
  obtain ⟨refused, binds⟩ := askOrder_tested (n := n) hc hp
  obtain ⟨grade, limits, registration, fit⟩ := orderTest_cases t p o
  refine ⟨fun g hg => refused _ (grade g hg), fun hg hm => refused _ (limits hg hm),
    fun r hg hm hr hx => refused _ (registration r hg hm hr hx), fun hg hm hx => (binds (fit hg hm hx)).trans ?_⟩
  simp only [bindOrder, State.mapOrder, keepRun_eq_filter, beq_iff_eq]
  rfl

end Sys2Proof.Machine

/-! ### What the end of an order leaves (O56) -/

namespace Sys2Proof.Machine

/-- What no completion and no order that ends changes: the web, the line's state and constants, the panel being drawn and how far it is,
the run, and whether trials go on. -/
def State.path (s : State) :=
  ((s.web.segs, s.web.panels), (s.line.state, s.line.consts),
   (s.head.panel, s.head.cursor, s.head.meter, s.head.f, s.head.o), (s.head.run, s.head.align.isSome))

/-- The parts of `State.path` by name. -/
structure SamePath (s t : State) : Prop where
  segs : t.web.segs = s.web.segs
  panels : t.web.panels = s.web.panels
  line : t.line.state = s.line.state
  k : t.k = s.k
  panel : t.head.panel = s.head.panel
  cursor : t.head.cursor = s.head.cursor
  meter : t.head.meter = s.head.meter
  f : t.head.f = s.head.f
  o : t.head.o = s.head.o
  run : t.head.run = s.head.run
  align : t.head.align.isSome = s.head.align.isSome

theorem samePath_of_path {s t : State} (h : t.path = s.path) : SamePath s t := by
  simp only [State.path, Prod.mk.injEq] at h
  obtain ⟨⟨segs, panels⟩, ⟨line, consts⟩, ⟨panel, cursor, meter, f, o⟩, run, align⟩ := h
  exact ⟨segs, panels, line, by rw [State.k, State.k, consts], panel, cursor, meter, f, o, run, align⟩

theorem PostsOnly.path {s t : State} (h : PostsOnly s t) : t.path = s.path := by
  obtain ⟨mem, port, rfl | rfl⟩ := h
  · rfl
  · simp [State.path, dropRequests]

theorem removeOrder_path (o : Order) (s : State) : (removeOrder o s).path = s.path := by
  obtain ⟨stays, freed⟩ := removeOrder_cases o s
  by_cases h : (s.slot o.pattern).state = .retiring ∧ (s.slot o.pattern).uses ≤ 1
  · rw [freed h.1 h.2]
    exact (concludeWatch_postsOnly _ _ _).path
  · rw [stays h]
    rfl

theorem completeOrder_path (tag : Nat) (s : State) : (completeOrder tag s).path = s.path := by
  unfold completeOrder
  split
  · split
    · exact (concludeWatch_postsOnly _ _ _).path.trans (removeOrder_path _ s)
    · rfl
  · rfl

theorem releaseOrder_path (tag : Nat) (s : State) : (releaseOrder tag s).path = s.path := completeOrder_path _ _

theorem orderPanelComplete_path (tag : Nat) (s : State) : (orderPanelComplete tag s).path = s.path := by
  unfold orderPanelComplete
  simp only
  split
  · split
    · exact releaseOrder_path _ _
    · rfl
  · rfl

theorem orderPanelCut_path (tag : Nat) (s : State) : (orderPanelCut tag s).path = s.path := by
  unfold orderPanelCut
  split
  · split
    · exact releaseOrder_path _ _
    · rfl
  · rfl

/-! ### Reports to the order of a panel (O56) -/

section OrderReports

variable {tag : Nat} {s : State} {o : Order}

/-- A change that keeps the tags changes the order found. -/
theorem findOrder_mapOrder {f : Order → Order} (hf : ∀ y, (f y).tag = y.tag) (ho : s.findOrder tag = some o) :
    (s.mapOrder tag f).findOrder tag = some (f o) := by
  have keeps : (fun y : Order => (if (y.tag == tag) = true then f y else y).tag == tag) = fun y => y.tag == tag := by
    funext y
    split
    · rw [hf]
    · rfl
  have found : (o.tag == tag) = true := beq_iff_eq.2 (findOrder_tag ho)
  rw [State.findOrder, State.mapOrder, List.find?_map, Function.comp_def, keeps, show List.find? _ _ = some o from ho, Option.map_some,
    if_pos found]

theorem mapOrder_mapOrder (f g : Order → Order) (hf : ∀ y, (f y).tag = y.tag) :
    (s.mapOrder tag f).mapOrder tag g = s.mapOrder tag (fun y => g (f y)) := by
  have both : ((fun y => if (y.tag == tag) = true then g y else y) ∘ fun y => if (y.tag == tag) = true then f y else y) =
      fun y => if (y.tag == tag) = true then g (f y) else y := by
    funext y
    by_cases h : y.tag = tag <;> simp [h, hf]
  simp only [State.mapOrder, List.map_map, both]

variable (ho : s.findOrder tag = some o)
include ho

/-- R58: an order with nothing to form and no live panel leaves the queue, and its notify watch ends. -/
theorem completeOrder_cases :
    (o.m = 0 → o.live = 0 → completeOrder tag s = concludeWatch o.watch (endAnswer o o.cancel) (removeOrder o s)) ∧
    (o.m ≠ 0 ∨ o.live ≠ 0 → completeOrder tag s = s) := by
  rw [completeOrder, ho]
  exact ⟨fun hm hl => if_pos ⟨hm, hl⟩, fun h => if_neg (by omega)⟩

/-- R56: the panel complete report of an order that goes on, and of one that then owes nothing or is cancelled. -/
theorem orderPanelComplete_cases :
    (1 < o.m → o.cancel = false →
      orderPanelComplete tag s = s.mapOrder tag (fun y => { y with m := y.m - 1, formed := y.formed + 1 })) ∧
    (o.m ≤ 1 ∨ o.cancel = true → orderPanelComplete tag s =
      releaseOrder tag (s.mapOrder tag (fun y => { y with m := y.m - 1, formed := y.formed + 1 }))) := by
  have found := findOrder_mapOrder (f := fun y => { y with m := y.m - 1, formed := y.formed + 1 }) (fun _ => rfl) ho
  simp only [orderPanelComplete, found]
  refine ⟨fun hm hx => if_neg ?_, fun h => if_pos (h.imp (fun hm => by omega) id)⟩
  rintro (h0 | h1)
  · omega
  · exact Bool.false_ne_true (hx.symm.trans h1)

/-- R56: the panel cut report. -/
theorem orderPanelCut_cases : (o.cancel = false → orderPanelCut tag s = s) ∧
    (o.cancel = true → orderPanelCut tag s = releaseOrder tag s) := by
  rw [orderPanelCut, ho]
  exact ⟨fun h => if_neg (Bool.eq_false_iff.1 h), fun h => if_pos h⟩

end OrderReports

/-! ### A panel complete and a panel cut (O56) -/

/-- R56, R90: the panel's segment closed at the current F and O, and its record changed. -/
def panelClosed (id : Nat) (y : Panel → Panel) (rest : List Segment) (g : Segment) (s : State) : State := { s with
  web.segs := rest ++ [{ g with fEnd := some s.head.f, oEnd := some s.head.o }]
  web.panels := s.web.panels.map (fun p => if p.id = id then y p else p) }

/-- R63, R65: the head without its panel, in the state that goes with the line's. -/
theorem leaveForming_eq {s : State} {l : LineState} {align : Bool} (hl : s.line.state = l) (ha : s.head.align.isSome = align) :
    leaveForming s = { s with
      head.panel := none, head.meter := none, head.cursor := Cursor.clear, head.state := headStateOf l false align } := by
  rw [← hl, ← ha]
  rfl

section PanelEnds

variable {s : State} {rest : List Segment} {g : Segment} (hs : s.web.segs = rest ++ [g]) (hg : g.fEnd = none) (hk : g.kind = .panel)
  (id : Nat)
include hs hg hk

/-- R90: a PANEL segment is closed and stays in the list, whatever it holds. -/
theorem closeNewest_panel : closeNewest s =
    { s with web.segs := rest ++ [{ g with fEnd := some s.head.f, oEnd := some s.head.o }] } := by
  have newest : s.newestSeg = some g := by rw [State.newestSeg, hs, List.getLast?_concat]
  have dropped : s.web.segs.dropLast = rest := by rw [hs, List.dropLast_concat]
  simp [closeNewest, newest, hg, hk, dropped]

theorem closeNewest_mapPanel (y : Panel → Panel) : (closeNewest s).mapPanel id y = panelClosed id y rest g s := by
  simp only [closeNewest_panel hs hg hk, State.mapPanel, panelClosed, beq_iff_eq]

/-- R56, R72: the panel's segment closed, its order told, the head without it; and the gap, but in STOPPING and THREAD. -/
theorem panelComplete_eq :
    let told := leaveForming (orderPanelComplete (s.panelOrder id) (panelClosed id (fun p => { p with state := .inPath }) rest g s))
    panelComplete id s =
      if s.line.state = .stopping ∨ s.line.state = .thread then told else { told with head.run := s.gapRun } := by
  intro told
  have kept := samePath_of_path (orderPanelComplete_path (s.panelOrder id)
    (panelClosed id (fun p => { p with state := .inPath }) rest g s))
  have line : told.line.state = s.line.state := kept.line
  have gap : told.gapRun = s.gapRun := by simp only [State.gapRun, show told.k = s.k from kept.k]
  rw [← line, ← gap]
  simp only [panelComplete, closeNewest_mapPanel hs hg hk]
  split
  next h => exact (if_pos (.inl h)).symm
  next h => exact (if_pos (.inr h)).symm
  next h1 h2 => exact (if_neg (not_or.2 ⟨h1, h2⟩)).symm

/-- R56, R81: the panel's segment closed, its order told, and the head without it. -/
theorem cutPanel_eq : cutPanel id s =
    let cut := leaveForming (orderPanelCut (s.panelOrder id)
      (panelClosed id (fun p => { p with state := .inPath, cut := true }) rest g s))
    { cut with head.committed := s.head.f, head.counting := false, head.expected := none } := by
  have kept := samePath_of_path (orderPanelCut_path (s.panelOrder id)
    (panelClosed id (fun p => { p with state := .inPath, cut := true }) rest g s))
  have committed : ∀ (u : State) {f : Nat}, u.head.f = f →
      leaveForming { u with head.committed := u.head.f, head.counting := false, head.expected := none } =
        { leaveForming u with head.committed := f, head.counting := false, head.expected := none } := by
    rintro u f rfl
    rfl
  simp only [cutPanel, closeNewest_mapPanel hs hg hk]
  exact committed _ kept.f

/-- R56, R72: what a panel that completes leaves, in every state of the line. -/
theorem panelComplete_fields : let t := panelComplete id s
    t.web.segs = rest ++ [{ g with fEnd := some s.head.f, oEnd := some s.head.o }] ∧
    t.web.panels = s.web.panels.map (fun p => if p.id = id then { p with state := .inPath } else p) ∧
    t.head.panel = none ∧ t.head.meter = none ∧ t.head.cursor = Cursor.clear ∧ t.head.f = s.head.f ∧ t.head.o = s.head.o ∧
    t.line.state = s.line.state := by
  have kept := samePath_of_path (orderPanelComplete_path (s.panelOrder id)
    (panelClosed id (fun p => { p with state := .inPath }) rest g s))
  rw [panelComplete_eq hs hg hk]
  split <;> exact ⟨kept.segs, kept.panels, rfl, rfl, rfl, kept.f, kept.o, kept.line⟩

/-- R72: the head state and the run of a panel that completes in RUN and in STOPPING. -/
theorem panelComplete_run : let t := panelComplete id s
    (s.line.state = .run → t.head.state = .flat ∧ t.head.run = s.gapRun) ∧
    (s.line.state = .stopping → t.head.run = s.head.run) := by
  have kept := samePath_of_path (orderPanelComplete_path (s.panelOrder id)
    (panelClosed id (fun p => { p with state := .inPath }) rest g s))
  rw [panelComplete_eq hs hg hk]
  refine ⟨fun h => ?_, fun h => ?_⟩
  · rw [if_neg (by rw [h]; decide), leaveForming_eq (kept.line.trans h) rfl]
    exact ⟨rfl, rfl⟩
  · rw [if_pos (.inl h)]
    exact kept.run

/-- R56, R81: what a panel that is cut leaves. -/
theorem cutPanel_fields : let c := cutPanel id s
    c.web.segs = rest ++ [{ g with fEnd := some s.head.f, oEnd := some s.head.o }] ∧
    c.web.panels = s.web.panels.map (fun p => if p.id = id then { p with state := .inPath, cut := true } else p) ∧
    c.head.panel = none ∧ c.head.meter = none ∧ c.head.cursor = Cursor.clear ∧ c.head.committed = s.head.f ∧
    c.head.counting = false ∧ c.head.expected = none ∧ c.head.f = s.head.f ∧ c.head.o = s.head.o ∧
    (∀ o, s.findOrder (s.panelOrder id) = some o → o.cancel = false → c.orders = s.orders ∧ c.head.bound = s.head.bound) := by
  have kept := samePath_of_path (orderPanelCut_path (s.panelOrder id)
    (panelClosed id (fun p => { p with state := .inPath, cut := true }) rest g s))
  rw [cutPanel_eq hs hg hk]
  refine ⟨kept.segs, kept.panels, rfl, rfl, rfl, rfl, rfl, rfl, kept.f, kept.o, fun o ho hc => ?_⟩
  rw [(orderPanelCut_cases (s := panelClosed id (fun p => { p with state := .inPath, cut := true }) rest g s) ho).1 hc]
  exact ⟨rfl, rfl⟩

end PanelEnds


end Sys2Proof.Machine

/-! ### What an output report leaves (O56) -/

namespace Sys2Proof.Machine

/-- The unit being drawn, F and O, and the web: what only a draw, an output and the removal of segments change. -/
def State.drawn (s : State) :=
  ((s.head.panel, s.head.cursor, s.head.meter, s.head.f, s.head.o), (s.web.segs, s.web.panels))

theorem drawn_of_path {s t : State} (h : t.path = s.path) : t.drawn = s.drawn := by
  have kept := samePath_of_path h
  simp only [State.drawn, kept.panel, kept.cursor, kept.meter, kept.f, kept.o, kept.segs, kept.panels]

/-! A change of line state, and what brings one about, leaves all of it. -/

theorem placeRun_drawn (r : Option Run) (s : State) : (placeRun r s).drawn = s.drawn := by
  unfold placeRun
  split <;> rfl

theorem headStopping_drawn (s : State) : (headStopping s).drawn = s.drawn := by
  have withdrawn : ∀ (p : Prop) [Decidable p], (if p then withdraw s else s).drawn = s.drawn := by
    intro p _
    split <;> rfl
  unfold headStopping
  simp only
  split
  · exact (placeRun_drawn _ _).trans (withdrawn _)
  · exact withdrawn _

theorem headLine_drawn (st : LineState) (s : State) : (headLine st s).drawn = s.drawn := by
  cases st
  case stopping => exact headStopping_drawn s
  case thread => exact placeRun_drawn _ _
  all_goals rfl

theorem triggerTest_drawn (s : State) : (triggerTest s).drawn = s.drawn := by
  unfold triggerTest
  split <;> rfl

theorem lineTo_drawn (st : LineState) (s : State) : (lineTo st s).drawn = s.drawn :=
  (triggerTest_drawn _).trans (headLine_drawn st _)

theorem testRun_drawn (s : State) : (testRun s).drawn = s.drawn := by
  unfold testRun
  split
  · exact (drawn_of_path (concludeWatch_postsOnly _ _ _).path).trans (lineTo_drawn .run s)
  · rfl

theorem raiseReason_drawn (r : HoldReason) (s : State) : (raiseReason r s).drawn = s.drawn := by
  unfold raiseReason
  simp only
  split
  · exact lineTo_drawn _ _
  · exact lineTo_drawn _ _
  all_goals rfl

theorem clearReason_drawn (r : HoldReason) (s : State) : (clearReason r s).drawn = s.drawn := by
  unfold clearReason
  split
  · simp only
    split
    · exact (testRun_drawn _).trans (lineTo_drawn _ _)
    · rfl
  · rfl

theorem publish_drawn (s : State) : (publish s).drawn = s.drawn := by
  refine (testRun_drawn _).trans ?_
  unfold heatTest
  split
  · exact raiseReason_drawn _ _
  · split
    · exact clearReason_drawn _ _
    · rfl

theorem reportPlaces_drawn (s : State) : (reportPlaces s).drawn = s.drawn := by
  unfold reportPlaces
  simp only
  split
  · exact clearReason_drawn _ _
  · rfl

theorem reportCandidate_drawn (s : State) : (reportCandidate s).drawn = s.drawn := by
  unfold reportCandidate
  split
  · exact clearReason_drawn _ _
  · rfl

theorem dropRef_drawn (tag : Nat) (s : State) : (dropRef tag s).drawn = s.drawn := by
  unfold dropRef endRollRetirement
  split
  · split
    · exact drawn_of_path (concludeWatch_postsOnly _ _ _).path
    · rfl
  · rfl

theorem orderExit_drawn (tag : Nat) (v : Verdict) (r : Reasons) (s : State) : (orderExit tag v r s).drawn = s.drawn := by
  unfold orderExit
  split
  · rfl
  · simp only
    split
    · split
      · exact reportCandidate_drawn _
      · rfl
    · exact drawn_of_path (completeOrder_path _ _)

theorem shiftCells_drawn (s : State) : (shiftCells s).drawn = s.drawn := rfl

/-! ### Panels that stay FORMING while others leave -/

/-- A panel is FORMING and its segment is open at its end in O. -/
def State.formingOpen (s : State) (id : Nat) : Prop :=
  (∃ p, s.findPanel id = some p ∧ p.state = .forming) ∧ ∀ g ∈ s.web.segs, g.kind = .panel → g.panel = some id → g.oEnd = none

/-- The unit being drawn, F and O stay, and so do the FORMING panels among the given ids. -/
structure Undisturbed (ids : Nat → Prop) (s t : State) : Prop where
  panel : t.head.panel = s.head.panel
  cursor : t.head.cursor = s.head.cursor
  meter : t.head.meter = s.head.meter
  f : t.head.f = s.head.f
  o : t.head.o = s.head.o
  forming : ∀ id, ids id → s.formingOpen id → t.formingOpen id

namespace Undisturbed

variable {ids : Nat → Prop} {s t u : State}

theorem of_drawn (h : t.drawn = s.drawn) : Undisturbed ids s t := by
  simp only [State.drawn, Prod.mk.injEq] at h
  obtain ⟨⟨panel, cursor, meter, f, o⟩, segs, panels⟩ := h
  refine ⟨panel, cursor, meter, f, o, fun id _ hid => ?_⟩
  simpa only [State.formingOpen, State.findPanel, segs, panels] using hid

theorem refl (s : State) : Undisturbed ids s s := of_drawn rfl

theorem trans (a : Undisturbed ids s t) (b : Undisturbed ids t u) : Undisturbed ids s u :=
  ⟨b.panel.trans a.panel, b.cursor.trans a.cursor, b.meter.trans a.meter, b.f.trans a.f, b.o.trans a.o,
    fun id hid h => b.forming id hid (a.forming id hid h)⟩

theorem foldl {α : Type} {f : State → α → State} (l : List α) (hf : ∀ a ∈ l, ∀ s, Undisturbed ids s (f s a)) (s : State) :
    Undisturbed ids s (l.foldl f s) := by
  induction l generalizing s with
  | nil => exact refl s
  | cons a l ih =>
    exact (hf a List.mem_cons_self s).trans (ih (fun b hb => hf b (List.mem_cons_of_mem a hb)) _)

end Undisturbed

theorem findPanel_id {s : State} {id : Nat} {p : Panel} (h : s.findPanel id = some p) : p.id = id := by
  simpa using List.find?_some h

/-- A change of panel records that keeps their ids changes the record found. -/
theorem findPanel_mapPanel {f : Panel → Panel} (hf : ∀ p, (f p).id = p.id) (id n : Nat) (s : State) :
    (s.mapPanel n f).findPanel id = (s.findPanel id).map (fun p => if p.id == n then f p else p) := by
  have keeps : ((fun p : Panel => p.id == id) ∘ fun p => if (p.id == n) = true then f p else p) = fun p => p.id == id := by
    funext p
    simp only [Function.comp_apply]
    split
    · rw [hf]
    · rfl
  rw [State.findPanel, State.mapPanel, List.find?_map, keeps]
  rfl

section Exits

variable {ids : Nat → Prop} {s : State}

/-- A panel record changed that is not one of the given ids, or whose state is kept. -/
theorem mapPanel_undisturbed {n : Nat} {f : Panel → Panel} (hf : ∀ p, (f p).id = p.id)
    (hs : ids n → ∀ p, (f p).state = p.state) (s : State) : Undisturbed ids s (s.mapPanel n f) := by
  refine ⟨rfl, rfl, rfl, rfl, rfl, fun id hid ⟨⟨p, hp, forming⟩, segs⟩ => ⟨?_, segs⟩⟩
  rw [findPanel_mapPanel hf, hp]
  refine ⟨_, rfl, ?_⟩
  simp only
  split
  next here =>
    have same : n = id := (beq_iff_eq.1 here).symm.trans (findPanel_id hp)
    rw [hs (same ▸ hid), forming]
  next => exact forming

/-- R100: the record of another panel freed. -/
theorem freePanel_undisturbed {n : Nat} (hn : ¬ ids n) (s : State) : Undisturbed ids s (freePanel n s) := by
  unfold freePanel
  refine .trans ?_ (.of_drawn (clearReason_drawn _ _))
  refine ⟨rfl, rfl, rfl, rfl, rfl, fun id hid ⟨⟨p, hp, forming⟩, segs⟩ => ⟨⟨p, ?_, forming⟩, segs⟩⟩
  have other : id ≠ n := fun e => hn (e ▸ hid)
  have kept : ∀ a : Panel, ((a.id != n) = true ∧ (a.id == id) = true) ↔ (a.id == id) = true := by
    intro a
    simp only [bne_iff_ne, beq_iff_eq, and_iff_right_iff_imp]
    rintro rfl
    exact other
  change (s.web.panels.filter (fun a => a.id != n)).find? (fun a => a.id == id) = some p
  rw [List.find?_filter]
  simpa only [kept, Bool.decide_eq_true, State.findPanel] using hp

/-- R100: a delivery of another panel. -/
theorem deliver_undisturbed {n : Nat} (hn : ¬ ids n) (no : Nat) (s : State) : Undisturbed ids s (deliver no n s).1 := by
  have concluded : ∀ a, Undisturbed ids s (conclude no a s) := fun a => .of_drawn (drawn_of_path (conclude_postsOnly no a s).path)
  unfold deliver
  split
  · split
    · simp only
      split
      · exact (concluded _).trans (freePanel_undisturbed hn _)
      · exact concluded _
    · exact .refl s
  · exact .refl s

theorem offerTo_undisturbed {n : Nat} (hn : ¬ ids n) (l : List Nat) (s : State) : Undisturbed ids s (offerTo l n s) := by
  induction l generalizing s with
  | nil => exact .refl s
  | cons no rest ih =>
    have offered : Undisturbed ids s (deliver no n { s with web.awaits := s.web.awaits.filter (fun x => x != no) }).1 := by
      refine .trans ?_ (deliver_undisturbed hn no _)
      exact .of_drawn rfl
    unfold offerTo
    simp only
    split
    · exact offered
    · exact offered.trans (ih _)

/-- R98: another panel judged and EXITED. -/
theorem exitPanel_undisturbed {p : Panel} (hp : ¬ ids p.id) (r : Reasons) (s : State) : Undisturbed ids s (exitPanel p r s) := by
  have judged : ∀ f : Panel → Panel, (∀ x, (f x).id = x.id) → ∀ exits,
      Undisturbed ids s { s.mapPanel p.id f with web.exits := exits } :=
    fun f hf exits => .trans (mapPanel_undisturbed hf (fun h => absurd h hp) s) (.of_drawn rfl)
  unfold exitPanel
  refine .trans ?_ (offerTo_undisturbed hp _ _)
  refine .trans ?_ (.of_drawn (orderExit_drawn _ _ _ _))
  exact judged _ (by exact fun _ => rfl) _

/-- R96: the exit of the panel whose segment leaves, which is another one. -/
theorem removedSeg_undisturbed {g : Segment} (hg : g.kind = .panel → ∀ id, g.panel = some id → ¬ ids id)
    (reasons : State → Panel → Reasons) (s : State) : Undisturbed ids s (removedSeg reasons s g) := by
  refine .trans ?_ (.of_drawn (dropRef_drawn g.roll _))
  unfold exitSeg
  split
  next id hk hid =>
    split
    next p hp => exact exitPanel_undisturbed (findPanel_id hp ▸ hg hk id hid) _ s
    next => exact .refl s
  next => exact .refl s

/-- R96: no FORMING panel is among those whose segments leave, since the segment of a FORMING panel has no end in O. -/
theorem removeBelow_undisturbed (bound : Nat) (s : State) : Undisturbed ids s (removeBelow bound s) := by
  let gone := s.web.segs.takeWhile (Segment.below bound)
  let left := s.web.segs.dropWhile (Segment.below bound)
  have others : ∀ g ∈ gone, g.kind = .panel → ∀ id, g.panel = some id → ¬ s.formingOpen id := by
    intro g hg hk id hid hopen
    have below : g.below bound = true := List.mem_takeWhile_imp hg
    rw [Segment.below, hopen.2 g (List.takeWhile_subset _ hg) hk hid] at below
    exact Bool.false_ne_true below
  have removed : Undisturbed s.formingOpen { s with web.segs := left }
      (gone.foldl (removedSeg State.reasonsOf) { s with web.segs := left }) :=
    .foldl gone (fun g hg t => removedSeg_undisturbed (others g hg) _ t) _
  have rest : Undisturbed ids s (gone.foldl (removedSeg State.reasonsOf) { s with web.segs := left }) :=
    ⟨removed.panel, removed.cursor, removed.meter, removed.f, removed.o, fun id _ hopen =>
      removed.forming id hopen ⟨hopen.1, fun g hg => hopen.2 g (List.dropWhile_subset _ hg)⟩⟩
  unfold removeBelow
  simp only
  split
  · exact rest
  · exact rest.trans (.of_drawn (reportPlaces_drawn _))

theorem creditPanel_undisturbed (occupant dose peak : Nat) (s : State) : Undisturbed ids s (creditPanel occupant dose peak s) := by
  unfold creditPanel
  split
  · split
    · exact mapPanel_undisturbed (by exact fun _ => rfl) (by exact fun _ _ => rfl) s
    · exact .refl s
  · exact .refl s

/-- R95, R96: a cell leaves: its occupants are credited, then what lies below its bound is removed. -/
theorem cellExit_undisturbed (c : Cell) (s : State) : Undisturbed ids s (cellExit c s) := by
  have credited : Undisturbed ids s (match c.fill with
      | some f =>
        if f.second = f.first then creditPanel f.first f.dose f.peak s
        else creditPanel f.second f.dose f.peak (creditPanel f.first f.dose f.peak s)
      | none => s) := by
    split
    next f =>
      split
      · exact creditPanel_undisturbed _ _ _ s
      · exact (creditPanel_undisturbed _ _ _ s).trans (creditPanel_undisturbed _ _ _ _)
    next => exact .refl s
  unfold cellExit
  simp only
  split
  · exact credited.trans (removeBelow_undisturbed _ _)
  · exact credited

theorem crossing_undisturbed (s : State) : Undisturbed ids s (crossing s) := by
  have crossed : Undisturbed ids s
      (shiftCells (cellExit s.lastCell { s with chest.cells := s.chest.cells.dropLast ++ [⟨none, none⟩] })) := by
    refine .trans ?_ (.of_drawn (shiftCells_drawn _))
    refine .trans ?_ (cellExit_undisturbed _ _)
    exact .of_drawn rfl
  unfold crossing
  simp only
  split
  · exact crossed
  · exact crossed.trans (.of_drawn (publish_drawn _))

theorem crossings_undisturbed (n : Nat) (s : State) : Undisturbed ids s (crossings n s) := by
  induction n generalizing s with
  | zero => exact .refl s
  | succ n ih => exact (crossing_undisturbed s).trans (ih _)

/-- R66, R117: an output report moves O and leaves the unit being drawn and the FORMING panels. -/
theorem reportOutput_undisturbed (len : Nat) (s : State) :
    Undisturbed ids { s with head.o := s.head.o + len } (reportOutput len s) := crossings_undisturbed _ _

/-- R117: an output that reaches no crossing moves O alone. -/
theorem reportOutput_short {len : Nat} {k : Consts} (hk : s.line.consts = some k)
    (h : s.head.o + len < k.dEntry + s.chest.entry) : reportOutput len s = { s with head.o := s.head.o + len } := by
  have none_due : ({ s with head.o := s.head.o + len } : State).crossingsDue = 0 := by
    simp only [State.crossingsDue, State.k, hk, Option.getD_some]
    exact if_neg (Nat.not_le.2 h)
  rw [reportOutput, none_due]
  rfl

end Exits

end Sys2Proof.Machine

/-! ### Cuts by request and units that complete (O56) -/

namespace Sys2Proof.Machine

/-- R82, R151: a cut by request once the unit in flight is finished: the gap begun in RUN or owed in HOLD and STARTING, and the trigger
test. -/
def cutBegins (id : Nat) (t : State) : State :=
  let v := headAgain (cutPanel id t)
  triggerTest (if v.line.state = .run then { v with head.run := v.gapRun }
    else if v.line.state = .stopping then v else { v with head.gapOwed := true })

theorem cutByRequest_begins {s : State} {id : Nat} (h : s.head.panel = some id) :
    cutByRequest s = cutBegins id (finishFlight (markLate (withdraw s))) := by
  simp only [cutByRequest, h, cutBegins]
  congr 1
  split
  next hr => exact (if_pos hr).symm
  next hs => rw [hs]; rfl
  next hr hs => exact ((if_neg hr).trans (if_neg hs)).symm

/-- R81, R82: the unit in flight is finished with its output reported, and its later reports are owed. -/
theorem finishFlight_markLate (s : State) :
    (s.head.flight = none → finishFlight (markLate s) = s) ∧
    (∀ fl, s.head.flight = some fl → finishFlight (markLate s) = reportOutput fl.unit.output { s with
      head.flight := none
      head.late := ⟨s.head.late.travel + (fl.unit.draw - fl.travel),
        s.head.late.pleats + if fl.unit.strokes = [] ∨ fl.results ≠ none then 0 else 1⟩ }) := by
  refine ⟨fun h => ?_, fun fl h => ?_⟩
  · simp only [markLate, h, finishFlight]
  · simp only [markLate, h, finishFlight, List.isEmpty_iff, Option.isSome_iff_ne_none]

/-- R66, R72: a fold unit that completes reports its output, and then its panel completes if the cursor is at the end. -/
theorem completeUnit_fold {fl : Flight} {s : State} (hf : fl.unit.fold = true) :
    let w := reportOutput fl.unit.output { s with head.flight := none, head.again := true }
    (∀ id, s.head.panel = some id → s.head.cursor.part = .atEnd → completeUnit fl s = panelComplete id w) ∧
    (s.head.panel = none ∨ s.head.cursor.part ≠ .atEnd → completeUnit fl s = w) := by
  intro w
  have kept := reportOutput_undisturbed (ids := fun _ => True) fl.unit.output { s with head.flight := none, head.again := true }
  have panel : w.head.panel = s.head.panel := kept.panel
  have cursor : w.head.cursor = s.head.cursor := kept.cursor
  have reported : completeUnit fl s = match w.head.panel with
      | some id => if w.head.cursor.part = .atEnd then panelComplete id w else w
      | none => w := by
    rw [completeUnit, if_pos hf]
    rfl
  rw [reported, panel, cursor]
  refine ⟨fun id hp hc => ?_, fun h => ?_⟩
  · rw [hp]
    exact if_pos hc
  · cases hp : s.head.panel with
    | none => rfl
    | some id => exact if_neg (h.resolve_left (by simp [hp]))

/-- Settles O56: the two panel ends through their segment, their order's report and the head; the order's reports by what the order still
owes; a cut by request and a completing unit through what an output report leaves. -/
theorem panelsCompleteAndAreCut : Obligations.PanelsCompleteAndAreCut := by
  refine ⟨?_, ?_, ?_, ?_, fun tag s => rfl, ?_⟩
  · intro s id g rest hs hg hk closed t c
    obtain ⟨segs, panels, panel, meter, cursor, f, o, line⟩ := panelComplete_fields hs hg hk id
    obtain ⟨inRun, stopping⟩ := panelComplete_run hs hg hk id
    refine ⟨⟨segs, panels, panel, meter, cursor, f, o, line, fun h => ⟨(inRun h).1, fun k hc => (inRun h).2.trans ?_⟩, stopping⟩,
      cutPanel_fields hs hg hk id⟩
    rw [State.gapRun, k_of_consts hc]
    rfl
  · intro s tag o ho put released
    obtain ⟨goes, ends⟩ := orderPanelComplete_cases ho
    obtain ⟨stays, cancelled⟩ := orderPanelCut_cases ho
    obtain ⟨leaves, waits⟩ := completeOrder_cases ho
    refine ⟨goes, fun h => (ends h).trans ?_, stays, fun h => (cancelled h).trans rfl, leaves, waits⟩
    rw [releaseOrder, mapOrder_mapOrder]
    exact fun _ => rfl
  · intro s
    refine ⟨fun h => by rw [cutByRequest, h], ?_⟩
    intro id h w begins
    obtain ⟨still, flying⟩ := finishFlight_markLate (withdraw s)
    refine ⟨fun hf => ?_, fun fl hf => ?_⟩
    · rw [cutByRequest_begins h, still hf]
      rfl
    · rw [cutByRequest_begins h, flying fl hf]
      rfl
  · intro fl s hf w
    obtain ⟨completes, goesOn⟩ := completeUnit_fold (s := s) hf
    have kept := reportOutput_undisturbed (ids := fun _ => True) fl.unit.output { s with head.flight := none, head.again := true }
    refine ⟨completes, goesOn, kept.panel, kept.cursor, kept.meter, kept.f, kept.o, fun k hk h => reportOutput_short hk h,
      fun id p hp forming segs => ?_⟩
    exact (kept.forming id trivial ⟨⟨p, hp, forming⟩, segs⟩).1
  · intro s id g rest hs hg hk closed left told cut gap
    have leaves : ∀ y v, v.path = (closed y).path → leaveForming v = left v := by
      intro y v hv
      have kept := samePath_of_path hv
      rw [leaveForming_eq (l := s.line.state) (align := s.head.align.isSome) kept.line kept.align]
      simp only [left]
      cases s.line.state <;> rfl
    have tells : leaveForming _ = told := leaves _ _ (orderPanelComplete_path _ _)
    have cuts : leaveForming _ = cut := leaves _ _ (orderPanelCut_path _ _)
    have complete := panelComplete_eq hs hg hk id
    refine ⟨fun h => ?_, fun h1 h2 => ?_, ?_, fun p hp => by rw [State.panelOrder, hp]; rfl⟩
    · exact complete.trans ((if_pos h).trans tells)
    · rw [← tells]
      exact complete.trans (if_neg (not_or.2 ⟨h1, h2⟩))
    · rw [← cuts]
      exact cutPanel_eq hs hg hk id

end Sys2Proof.Machine


/-! ### Changes of line state (O40) -/

namespace Sys2Proof.Machine

/-- R151, R152: the trigger test changes the turret, and of the line the unwind output and the feed-stall deadline. -/
theorem triggerTest_frame (s : State) :
    { triggerTest s with turret := s.turret, line.unwind := s.line.unwind, line.stall := s.line.stall } = s := by
  unfold triggerTest
  split <;> rfl

/-- What the trigger test changes can be taken back and the test made again. -/
theorem triggerTest_retaken {s u : State} (h : u = triggerTest s) :
    u = triggerTest { u with turret := s.turret, line.unwind := s.line.unwind, line.stall := s.line.stall } := by
  rw [h, triggerTest_frame]

/-- R140, R152: a test that triggers leaves the unwind off and the sequence PRESSING; one that does not leaves both. -/
theorem triggerTest_unwind (s : State) :
    (triggerTest s).line.unwind = s.line.unwind ∧ (triggerTest s).turret.seq = s.turret.seq ∨
    (triggerTest s).line.unwind = false ∧ (triggerTest s).turret.seq = .pressing := by
  unfold triggerTest
  split
  · right
    simp [trigger, judgeUnwind]
  · exact .inl ⟨rfl, rfl⟩

/-- R142, R152: no feed-stall deadline comes out of the test. -/
theorem triggerTest_stall {s : State} (h : s.line.stall = none) : (triggerTest s).line.stall = none := by
  unfold triggerTest
  split
  · rfl
  · exact h

theorem keepRun_eq_filter_mem (ps : List Purpose) (r : Option Run) : keepRun ps r = r.filter (fun y => y.purpose ∈ ps) := by
  cases r <;> simp [keepRun, Option.filter]

/-- R75, R180: which of the two places a run is put in. -/
theorem placeRun_eq (r : Option Run) (s : State) : placeRun r s = { s with
    head.run := if s.head.passage = .none then r else s.head.run
    head.suspended := if s.head.passage = .none then s.head.suspended else r } := by
  by_cases h : s.head.passage = .none <;> simp only [placeRun, h, if_true, if_false]

/-- R80: the chunk wanted by a run that gives way to the drain of STOPPING. -/
def Head.givesWay (h : Head) : Bool :=
  h.wanted.any (fun u => !u.fold) && !(keepRun [.drain, .guard, .splice] h.run).isSome

/-- R80: what entering STOPPING makes of each field it touches. -/
theorem headStopping_eq (s : State) : headStopping s =
    let spent := newRun .drain (some 0)
    { s with
      head.run := if s.head.drainSpent = true ∧ s.head.passage = .none then some spent
        else keepRun [.drain, .guard, .splice] s.head.run
      head.suspended := if s.head.drainSpent = true ∧ s.head.passage ≠ .none then some spent
        else keepRun [.drain] s.head.suspended
      head.wanted := if s.head.givesWay then none else s.head.wanted
      head.drainSpent := false
      line.starved := if s.head.givesWay then false else s.line.starved
      line.stall := if s.head.givesWay then none else s.line.stall } := by
  have given : (if s.head.givesWay then withdraw s else s) = { s with
      head.wanted := if s.head.givesWay then none else s.head.wanted
      line.starved := if s.head.givesWay then false else s.line.starved
      line.stall := if s.head.givesWay then none else s.line.stall } := by
    split <;> rfl
  rw [headStopping, ← Head.givesWay, given]
  cases hs : s.head.drainSpent
  · simp only [Bool.false_eq_true, false_and, if_false]
  · by_cases hp : s.head.passage = .none <;>
      simp only [placeRun_eq, hp, if_true, if_false, ne_eq, not_true_eq_false, not_false_eq_true, and_true, and_false]

/-- R64, R142: where starvation and its deadline go on at a change of line state. -/
def Head.goesOn (h : Head) (st : LineState) : Bool := st == .run || st == .stopping && !h.givesWay

theorem headLine_starving (st : LineState) (s : State) :
    (headLine st s).line.starved = (if s.head.goesOn st then s.line.starved else false) ∧
    (headLine st s).line.stall = (if s.head.goesOn st then s.line.stall else none) := by
  cases st
  case stopping =>
    have stops : s.head.goesOn .stopping = !s.head.givesWay := rfl
    rw [headLine, headAgain_line, headStopping_eq, stops]
    cases s.head.givesWay <;> exact ⟨rfl, rfl⟩
  case thread =>
    rw [headLine, placeRun_eq]
    exact ⟨rfl, rfl⟩
  all_goals exact ⟨rfl, rfl⟩

/-- A change of line state makes of the head the same whatever the rest of the line. -/
theorem headLine_head_line (st : LineState) (l : Line) (s : State) :
    (headLine st { s with line := l }).head = (headLine st s).head := by
  cases st
  case stopping => simp only [headLine, headStopping_eq]; rfl
  case thread => simp only [headLine, placeRun_eq]; rfl
  all_goals rfl

theorem headLine_eq (st : LineState) (s : State) : headLine st s = { s with
    head := (headLine st s).head
    line.starved := if s.head.goesOn st then s.line.starved else false
    line.stall := if s.head.goesOn st then s.line.stall else none } := by
  obtain ⟨hd, sv, sl, e, _, _⟩ := headLine_shape st s
  obtain ⟨starved, stall⟩ := headLine_starving st s
  rw [e] at starved stall ⊢
  rw [← starved, ← stall]

/-- R63, R64: the head after a change of line state. -/
def State.headIn (s : State) (st : LineState) : Head :=
  { (headLine st s).head with state := headStateOf st s.head.panel.isSome s.head.align.isSome }

/-- R63, R80: the head after STOPPING is entered. -/
theorem headIn_stopping (s : State) : s.headIn .stopping =
    let spent := newRun .drain (some 0)
    { s.head with
      state := if s.head.panel.isSome then .forming else .flat
      run := if s.head.drainSpent = true ∧ s.head.passage = .none then some spent
        else keepRun [.drain, .guard, .splice] s.head.run
      suspended := if s.head.drainSpent = true ∧ s.head.passage ≠ .none then some spent
        else keepRun [.drain] s.head.suspended
      wanted := if s.head.givesWay then none else s.head.wanted
      drainSpent := false, again := true } := by
  rw [State.headIn, headLine, headStopping_eq]
  rfl

/-- R63, R64: the head after THREAD is entered. -/
theorem headIn_thread (s : State) : s.headIn .thread =
    let thread := newRun .thread none
    { s.head with
      state := if s.head.align.isSome then .aligning else .flat
      run := if s.head.passage = .none then some thread else s.head.run
      suspended := if s.head.passage = .none then s.head.suspended else some thread
      wanted := none, again := true } := by
  rw [State.headIn, headLine, placeRun_eq]
  rfl

/-- R108: the zones after a change of line state. -/
def State.zonesIn (s : State) (st : LineState) : List Zone :=
  s.chest.zones.map (fun z => z.onLine s.chest.par s.line.state st s.line.clock)

/-- R126, R131, R138, R142: the line after a change of line state, with the unwind judged for a state of the splice sequence (R140). -/
def State.lineIn (s : State) (st : LineState) (seq : SpliceState) : Line :=
  { s.line with
    state := st, holds := s.line.holds.entering st, deadline := deadlineIn s.line.deadline st
    starved := if s.head.goesOn st then s.line.starved else false
    stall := if s.head.goesOn st then s.line.stall else none
    zonesReady := (s.zonesIn st).all (fun z => !z.enabled || z.ready)
    speedRef := { s.line with state := st }.reference
    unwind := st.moving && !s.line.latchShut && s.runningRoll.isSome && seq != .pressing }

/-- A change of line state up to the trigger test with which it ends. -/
def State.enters (s : State) (st : LineState) : State :=
  { s with head := s.headIn st, chest.zones := s.zonesIn st, line := s.lineIn st s.turret.seq }

/-- R64, R108, R138, R140, R151: a change of line state. -/
theorem lineTo_eq (st : LineState) (s : State) : lineTo st s = triggerTest (s.enters st) := by
  have reported := headLine_eq st { s with
    line.state := st, line.holds := s.line.holds.entering st, line.deadline := deadlineIn s.line.deadline st }
  rw [headLine_head_line] at reported
  have judged : s.headIn st = { (headLine st s).head with
      state := headStateOf st (headLine st s).head.panel.isSome (headLine st s).head.align.isSome } := by
    obtain ⟨_, _, _, e, hp, ha⟩ := headLine_shape st s
    rw [State.headIn, e, ← hp, ← ha]
  rw [lineTo, reported, State.enters, judged]
  rfl

/-- R151: the trigger test touches neither the head nor the chest, and of the line the unwind and the feed-stall deadline. -/
theorem lineTo_head (st : LineState) (s : State) : (lineTo st s).head = s.headIn st := by rw [lineTo_eq, triggerTest_head]; rfl

theorem triggerTest_chest (s : State) : (triggerTest s).chest = s.chest := by
  unfold triggerTest
  split <;> rfl

theorem triggerTest_line (s : State) : (triggerTest s).line =
    { s.line with unwind := (triggerTest s).line.unwind, stall := (triggerTest s).line.stall } := by
  unfold triggerTest
  split <;> rfl

theorem lineTo_chest (st : LineState) (s : State) : (lineTo st s).chest = { s.chest with zones := s.zonesIn st } := by
  rw [lineTo_eq, triggerTest_chest]
  rfl

theorem lineTo_line (st : LineState) (s : State) : (lineTo st s).line =
    { s.lineIn st s.turret.seq with unwind := (lineTo st s).line.unwind, stall := (lineTo st s).line.stall } := by
  rw [lineTo_eq, triggerTest_line]
  rfl

/-- R140: the unwind goes by the splice sequence as the trigger test leaves it. -/
theorem lineTo_unwind (st : LineState) (s : State) :
    (lineTo st s).line.unwind = (s.lineIn st (lineTo st s).turret.seq).unwind := by
  rw [lineTo_eq]
  rcases triggerTest_unwind (s.enters st) with ⟨unwind, seq⟩ | ⟨unwind, seq⟩ <;> rw [unwind, seq]
  · rfl
  · simp [State.lineIn]

/-- R131: the hold reasons that stand in a state entered. -/
theorem entering_eq (h : Holds) (st : LineState) : h.entering st = (match st with
    | .standby => Holds.empty
    | .off => Holds.empty
    | .halt => Holds.empty
    | .stopping => { h with operator := false, heat := false, noOrder := false }
    | _ => h) := by
  cases st <;> rfl

/-- R129: the states in which the start deadline goes on. -/
theorem deadlineIn_eq (d : Option Nat) (st : LineState) :
    deadlineIn d st = if st = .starting ∨ st = .hold then d else none := by
  cases st <;> rfl

/-- R64: outside RUN and STOPPING a wanted draw is withdrawn. -/
theorem headIn_wanted {st : LineState} {s : State} (h1 : st ≠ .run) (h2 : st ≠ .stopping) : (s.headIn st).wanted = none := by
  cases st
  case run => exact absurd rfl h1
  case stopping => exact absurd rfl h2
  case thread => rw [headIn_thread]
  all_goals rfl

/-- R80: STOPPING alone takes the mark of a spent drain. -/
theorem headIn_drainSpent {st : LineState} {s : State} (h : st ≠ .stopping) : (s.headIn st).drainSpent = s.head.drainSpent := by
  cases st
  case stopping => exact absurd rfl h
  case thread => rw [headIn_thread]
  all_goals rfl

/-- R77: RUN alone changes the registration. -/
theorem headIn_registration {st : LineState} {s : State} (h : st ≠ .run) :
    (s.headIn st).counting = s.head.counting ∧ (s.headIn st).expected = s.head.expected := by
  cases st
  case run => exact absurd rfl h
  case stopping => rw [headIn_stopping]; exact ⟨rfl, rfl⟩
  case thread => rw [headIn_thread]; exact ⟨rfl, rfl⟩
  all_goals exact ⟨rfl, rfl⟩

/-- What a change of line state leaves of the head. -/
theorem headIn_frame (st : LineState) (s : State) : { s.headIn st with
    state := s.head.state, run := s.head.run, suspended := s.head.suspended, wanted := s.head.wanted
    counting := s.head.counting, expected := s.head.expected, drainSpent := s.head.drainSpent
    again := s.head.again } = s.head := by
  cases st
  case stopping => rw [headIn_stopping]
  case thread => rw [headIn_thread]
  all_goals rfl

/-- R108: the target of a zone in a line state. -/
theorem targetIn_eq (z : Zone) (par : ZoneParams) (st : LineState) : z.targetIn par st = (match st with
    | .off => none
    | .starting => some z.setPoint
    | .run => some z.setPoint
    | .stopping => some z.setPoint
    | _ => some (z.setPoint - par.drop)) := by
  cases st <;> rfl

/-- R113: a zone is ready when it is not faulted and within the band of its target. -/
theorem isReady_eq (z : Zone) (par : ZoneParams) : z.isReady par =
    (!z.faulted && z.target.any (fun g => decide (z.reading ≤ g + par.band ∧ g ≤ z.reading + par.band))) := by
  rw [Zone.isReady]
  cases z.target with
  | none => exact (Bool.and_false _).symm
  | some g => simp only [Option.any_some, Bool.decide_and, Bool.and_assoc]

/-- R108, R113, R114: a zone at a change of line state. -/
theorem onLine_eq {z : Zone} {par : ZoneParams} {new : LineState} {target : Option Nat} (h : z.targetIn par new = target)
    (old : LineState) (now : Clock) :
    let y := { z with
      target := target
      ready := !z.faulted && target.any (fun g => decide (z.reading ≤ g + par.band ∧ g ≤ z.reading + par.band)) }
    z.onLine par old new now =
      if new = .off then { y with duty := 0, purging := false, timer := none }
      else if old = .off then { y with timer := some now }
      else y := by
  simp only [Zone.onLine, Zone.retarget, Zone.judge, isReady_eq, h]

/-- The target of a zone after a change of line state. -/
theorem onLine_target (z : Zone) (par : ZoneParams) (old new : LineState) (now : Clock) :
    (z.onLine par old new now).target = z.targetIn par new := by
  unfold Zone.onLine
  split
  · rfl
  · split <;> rfl

/-- R113: the answer for the enabled zones. -/
theorem allReady_iff (zones : List Zone) :
    zones.all (fun z => !z.enabled || z.ready) = true ↔ ∀ z ∈ zones, z.enabled = true → z.ready = true := by
  simp only [List.all_eq_true, Bool.or_eq_true, Bool.not_eq_true', ← Bool.not_eq_true, imp_iff_not_or]

/-- R80: the chunk that gives way, as the wanted draw and the run tell it. -/
theorem givesWay_iff (h : Head) : h.givesWay = true ↔
    h.wanted.map DrawUnit.fold = some false ∧ h.run.filter (fun y => y.purpose ∈ [.drain, .guard, .splice]) = none := by
  have chunk : h.wanted.any (fun u => !u.fold) = true ↔ h.wanted.map DrawUnit.fold = some false := by
    cases h.wanted <;> simp
  rw [Head.givesWay, keepRun_eq_filter_mem, Bool.and_eq_true, chunk, Bool.not_eq_true', Option.isSome_eq_false_iff,
    Option.isNone_iff_eq_none]

theorem goesOn_iff (h : Head) (st : LineState) : h.goesOn st = true ↔ (st = .run ∨ st = .stopping) ∧
    ¬ (st = .stopping ∧ h.wanted.map DrawUnit.fold = some false ∧
      h.run.filter (fun y => y.purpose ∈ [.drain, .guard, .splice]) = none) := by
  rw [← givesWay_iff]
  cases st <;> simp [Head.goesOn]

/-- R80: the wanted draw that entering STOPPING leaves: a fold unit's, and a chunk's whose run stays. -/
theorem wanted_unless_givesWay (h : Head) : (if h.givesWay then none else h.wanted) =
    if h.run.filter (fun y => y.purpose ∈ [.drain, .guard, .splice]) = none then h.wanted.filter (fun u => u.fold)
    else h.wanted := by
  by_cases stays : h.run.filter (fun y => y.purpose ∈ [.drain, .guard, .splice]) = none
  · rw [if_pos stays]
    cases hw : h.wanted with
    | none => exact ite_self _
    | some u =>
      have gives : h.givesWay = true ↔ u.fold = false := by
        rw [givesWay_iff, hw, and_iff_left stays, Option.map_some, Option.some_inj]
      cases hf : u.fold
      · rw [if_pos (gives.2 hf), Option.filter_some, hf]
        rfl
      · rw [if_neg (by simp [gives, hf]), Option.filter_some, hf]
        rfl
  · rw [if_neg stays, if_neg (fun g => stays ((givesWay_iff h).1 g).2)]

/-- Settles O40: every state entered by the record it makes, up to the trigger test that ends the change. -/
theorem changeOfLineState : Obligations.ChangeOfLineState := by
  refine ⟨?_, ?_, ?_, ?_⟩
  · intro st s t
    have line : t.line = { s.lineIn st s.turret.seq with unwind := t.line.unwind, stall := t.line.stall } := lineTo_line st s
    refine ⟨?_, ?_, ?_, ?_, fun h => ?_, ?_, ?_⟩
    · rw [line]; rfl
    · rw [line]
      exact entering_eq s.line.holds st
    · rw [line]
      exact deadlineIn_eq s.line.deadline st
    · rw [line]
      exact Line.reference_eq { s.line with state := st }
    · have unwind : t.line.unwind = _ := lineTo_unwind st s
      rw [unwind]
      rcases h with rfl | rfl | rfl <;> rfl
    · rw [show t.head = s.headIn st from lineTo_head st s]
      exact headStateOf_eq _ _ _
    · rw [show t.chest = _ from lineTo_chest st s]
      refine List.map_map.trans (List.map_congr_left (fun z _ => ?_))
      exact (onLine_target z _ _ _ _).trans (targetIn_eq z _ _)
  · intro st s h t kept whole
    have head : t.head = s.headIn st := lineTo_head st s
    have keeps : ∀ ps r, keepRun ps r = kept ps r := keepRun_eq_filter_mem
    rw [head]
    refine ⟨?_, ?_, ?_, ?_, ?_, ?_, ?_, ?_, ?_, ?_⟩
    · rintro rfl
      exact ⟨keeps _ _, keeps _ _, rfl, rfl, rfl⟩
    · rintro rfl stays
      rw [headIn_stopping]
      exact ⟨congrArg (ite _ _) (keeps _ _), congrArg (ite _ _) (keeps _ _), wanted_unless_givesWay h, rfl⟩
    · rintro rfl
      rw [headIn_thread]
      exact ⟨fun hp => ⟨if_pos hp, if_pos hp⟩, fun hp => ⟨if_neg hp, if_neg hp⟩⟩
    · rintro rfl
      exact ⟨rfl, rfl⟩
    · rintro (rfl | rfl | rfl | rfl) <;> exact ⟨keeps _ _, keeps _ _⟩
    · rintro (rfl | rfl | rfl)
      · rfl
      · rw [headIn_stopping]
      · rw [headIn_thread]
    · intro h1 h2
      have ends : s.head.goesOn st = false := by simp [Head.goesOn, h1, h2]
      have line : t.line = { s.lineIn st s.turret.seq with unwind := t.line.unwind, stall := t.line.stall } := lineTo_line st s
      have judged : (s.enters st).line.stall = none := by simp [State.enters, State.lineIn, ends]
      refine ⟨headIn_wanted h1 h2, ?_, (congrArg (fun u => u.line.stall) (lineTo_eq st s)).trans (triggerTest_stall judged)⟩
      rw [line]
      simp [State.lineIn, ends]
    · intro h1
      exact headIn_registration h1
    · intro h1
      exact headIn_drainSpent h1
    · exact headIn_frame st s
  · intro st s t near zone
    have chest : t.chest = { s.chest with zones := s.zonesIn st } := lineTo_chest st s
    have line : t.line = { s.lineIn st s.turret.seq with unwind := t.line.unwind, stall := t.line.stall } := lineTo_line st s
    constructor
    · have zones : s.zonesIn st = s.chest.zones.map zone :=
        List.map_congr_left (fun z _ => onLine_eq (targetIn_eq z _ _) _ _)
      rw [chest, zones]
    · rw [line, chest]
      exact allReady_iff (s.zonesIn st)
  · intro st s t moving runs gives goesOn stall
    have line : t.line = { s.lineIn st s.turret.seq with unwind := t.line.unwind, stall := t.line.stall } := lineTo_line st s
    have judged : ∀ seq, (s.lineIn st seq).unwind = runs seq := by
      intro seq
      simp only [State.lineIn, runs, moving, moving_eq, bne_eq_decide_ne]
    have starved : ∀ {α : Type} (x y : α), (if s.head.goesOn st then x else y) = if goesOn then x else y :=
      fun x y => if_congr (goesOn_iff s.head st) rfl rfl
    refine ⟨?_, ?_, ?_, ?_⟩
    · refine (triggerTest_retaken (lineTo_eq st s)).trans ?_
      have unwind : (s.enters st).line.unwind = runs s.turret.seq := judged _
      have stalls : (s.enters st).line.stall = stall := starved _ _
      rw [unwind, stalls]
      rfl
    · exact (lineTo_unwind st s).trans (judged _)
    · rw [line]
      exact starved _ _
    · have entered := triggerTest_frame (s.enters st)
      rw [← lineTo_eq] at entered
      calc _ = { { t with
              turret := (s.enters st).turret, line.unwind := (s.enters st).line.unwind
              line.stall := (s.enters st).line.stall } with
            head := s.head, chest := s.chest, line.state := s.line.state, line.holds := s.line.holds
            line.deadline := s.line.deadline, line.speedRef := s.line.speedRef, line.unwind := s.line.unwind
            line.zonesReady := s.line.zonesReady, line.starved := s.line.starved, line.stall := s.line.stall } := rfl
        _ = s := by rw [entered]; rfl

end Sys2Proof.Machine

/-! ### The drains of RUN and STOPPING (O57) -/

namespace Sys2Proof.Machine

/-- R68: the drain length is the entry length with the chest's. -/
theorem drainLen_eq {s : State} {k : Consts} (h : s.line.consts = some k) : s.drainLen = k.dEntry + 32000 := by
  rw [State.drainLen, k_of_consts h]
  rfl

section Drains

variable {s : State}

/-- R79, R80, R134: a drain in progress goes on while it has length left, and ends when it has none. -/
theorem drain_in_progress {r : Run} (hr : s.head.run = some r) (hp : r.purpose = .drain) :
    (r.remaining ≠ some 0 → orderDrain s = wantChunk r none s ∧ stopDrain s = wantChunk r none s) ∧
    (r.remaining = some 0 →
      orderDrain s = raiseReason .noOrder { s with head.run := none, head.drainSpent := true } ∧
      stopDrain s = let t := lineTo .standby { s with head.run := none }
        concludeAll t.line.stopWatches done { t with line.stopWatches := [] }) := by
  simp only [orderDrain, stopDrain, hr, if_pos hp]
  exact ⟨fun h => ⟨if_neg h, if_neg h⟩, fun h => ⟨if_pos h, if_pos h⟩⟩

/-- R79, R80: with no drain in progress one begins, but in RUN with the mark of a spent one set. -/
theorem drain_begins (h : ¬ ∃ r, s.head.run = some r ∧ r.purpose = .drain) :
    (orderDrain s = if s.head.drainSpent then raiseReason .noOrder { s with head.run := none }
      else wantChunk (newRun .drain (some s.drainLen)) none s) ∧
    stopDrain s = wantChunk (newRun .drain (some s.drainLen)) none { s with head.gapOwed := false } := by
  unfold orderDrain stopDrain
  cases hr : s.head.run with
  | none => exact ⟨rfl, rfl⟩
  | some r =>
    have other : ¬ r.purpose = .drain := fun hp => h ⟨r, hr, hp⟩
    exact ⟨if_neg other, if_neg other⟩

end Drains

/-- Settles O57: the drains by the run in progress, and the line by the state it enters. -/
theorem drainsOfRunAndStop : Obligations.DrainsOfRunAndStop := by
  intro s k hk whole draining
  have length : newRun .drain (some s.drainLen) = whole := by rw [drainLen_eq hk]; rfl
  refine ⟨fun r hr hp => drain_in_progress hr hp, fun h => ?_, fun h => ?_, fun h => ?_⟩
  · obtain ⟨inRun, stopping⟩ := drain_begins h
    rw [length] at inRun stopping
    exact ⟨fun hs => inRun.trans (if_neg (Bool.eq_false_iff.1 hs)), fun hs => inRun.trans (if_pos hs), stopping⟩
  · have raised : raiseReason .noOrder s = lineTo .hold { s with line.holds := s.line.holds.put true .noOrder } := by
      rw [raiseReason, h]
    rw [raised, lineTo_line]
    exact ⟨rfl, rfl⟩
  · rw [lineTo_line]
    exact ⟨rfl, rfl⟩

end Sys2Proof.Machine


/-! ### Draws taken at the end of an event (O52) -/

namespace Sys2Proof.Machine

/-- R66: with a unit in flight an event ends as it stands. -/
theorem settle_in_flight {s : State} (h : s.head.flight ≠ none) : settle s = { s with head.again := false } :=
  if_pos (Option.isSome_iff_ne_none.2 h)

/-- R66, R69: with no unit in flight and no report that calls on the head, an event ends by the wanted draw. -/
theorem settle_idle {s : State} (hf : s.head.flight = none) (ha : s.head.again = false) :
    (s.head.wanted = none → settle s = s) ∧
    (∀ u, s.head.wanted = some u → settle s = if u.draw ≤ s.line.store then takeDraw u s else s) := by
  simp only [settle, hf, ha, Option.isSome_none, Bool.false_eq_true, if_false]
  refine ⟨fun hw => ?_, fun u hw => ?_⟩ <;> rw [hw]

/-- R29, R65: the accumulators and the cursor after the unit at the cursor is drawn. -/
def State.meterDrawn (s : State) : Option Meter × Cursor :=
  match s.boundPage, s.head.meter with
  | some p, some a => (some (a.move (p.unitAt a.faces s.head.cursor).1 (p.unitAt a.faces s.head.cursor).2.1),
      p.nextCursor s.head.cursor)
  | _, _ => (s.head.meter, s.head.cursor)

theorem moveMeter_eq_meterDrawn (s : State) :
    moveMeter s = { s with head.meter := s.meterDrawn.1, head.cursor := s.meterDrawn.2 } := by
  rcases hp : s.boundPage with _ | p
  · have stays : moveMeter s = s := by rw [moveMeter, hp]
    rw [stays, State.meterDrawn, hp]
  · rcases hm : s.head.meter with _ | a
    · have stays : moveMeter s = s := by rw [moveMeter, hp, hm]
      have kept : s.meterDrawn = (s.head.meter, s.head.cursor) := by rw [State.meterDrawn, hp, hm]
      rw [stays, kept]
    · rw [moveMeter_eq hp hm, State.meterDrawn, hp, hm]

/-- R76: what a mark is moved by to where the panel would start. -/
def Head.markOffset (h : Head) : Nat :=
  match h.bound with
  | some b => (b.marks.map Marks.offset).getD 0
  | none => 0

/-- R29, R65, R66, R68, R76: the head after a draw. -/
def State.headDrawn (s : State) (u : DrawUnit) : Head :=
  { s.head with
    f := s.head.f + u.draw, wanted := none, flight := some ⟨u, 0, false, none⟩
    blade := if u.strokes.isEmpty then s.head.blade else u.strokes
    marks := s.head.marks.dropWhile (fun p => decide (p + s.head.markOffset < s.head.f + u.draw))
    run := if u.fold then s.head.run else s.head.run.map (fun r => r.drawn u.draw)
    meter := if u.fold then s.meterDrawn.1 else s.head.meter
    cursor := if u.fold then s.meterDrawn.2 else s.head.cursor }

/-- R139, R140: the line after a draw, with the unwind judged for a state of the splice sequence. -/
def State.lineDrawn (s : State) (u : DrawUnit) (seq : SpliceState) : Line :=
  let shut := latchAt s.k.cap (s.line.store - u.draw) s.line.latchShut
  { s.line with
    store := s.line.store - u.draw, starved := false, stall := none, latchShut := shut
    unwind := s.line.state.moving && !shut && s.runningRoll.isSome && seq != .pressing }

/-- A draw taken, up to the trigger test with which it ends. -/
def State.draws (s : State) (u : DrawUnit) : State :=
  { s with head := s.headDrawn u, line := s.lineDrawn u s.turret.seq }

/-- R66, R139, R140, R151: a draw taken. -/
theorem takeDraw_eq (u : DrawUnit) (s : State) : takeDraw u s = triggerTest (s.draws u) := by
  unfold takeDraw
  simp only [State.draws, State.headDrawn, judgeLatch_eq]
  cases u.fold
  · rfl
  · simp only [if_true, moveMeter_eq_meterDrawn]
    rfl


theorem takeDraw_head (u : DrawUnit) (s : State) : (takeDraw u s).head = s.headDrawn u := by
  rw [takeDraw_eq, triggerTest_head]
  rfl

theorem takeDraw_line (u : DrawUnit) (s : State) : (takeDraw u s).line =
    { s.lineDrawn u s.turret.seq with unwind := (takeDraw u s).line.unwind, stall := (takeDraw u s).line.stall } := by
  rw [takeDraw_eq, triggerTest_line]
  rfl

/-- R140: the unwind goes by the splice sequence as the trigger test leaves it. -/
theorem takeDraw_unwind (u : DrawUnit) (s : State) :
    (takeDraw u s).line.unwind = (s.lineDrawn u (takeDraw u s).turret.seq).unwind := by
  rw [takeDraw_eq]
  rcases triggerTest_unwind (s.draws u) with ⟨unwind, seq⟩ | ⟨unwind, seq⟩ <;> rw [unwind, seq]
  · rfl
  · simp [State.lineDrawn]

/-- R66: what a draw leaves as it is. -/
theorem takeDraw_frame (u : DrawUnit) (s : State) : { takeDraw u s with
    head := s.head, turret := s.turret, line.store := s.line.store, line.latchShut := s.line.latchShut
    line.unwind := s.line.unwind, line.starved := s.line.starved, line.stall := s.line.stall } = s := by
  have taken := triggerTest_frame (s.draws u)
  rw [← takeDraw_eq] at taken
  calc _ = { { takeDraw u s with
          turret := (s.draws u).turret, line.unwind := (s.draws u).line.unwind, line.stall := (s.draws u).line.stall } with
        head := s.head, line.store := s.line.store, line.latchShut := s.line.latchShut, line.unwind := s.line.unwind
        line.starved := s.line.starved, line.stall := s.line.stall } := rfl
    _ = s := by rw [taken]; rfl

/-- What a draw leaves of the head. -/
theorem headDrawn_frame (u : DrawUnit) (s : State) : { s.headDrawn u with
    f := s.head.f, flight := s.head.flight, wanted := s.head.wanted, blade := s.head.blade, marks := s.head.marks
    run := s.head.run, meter := s.head.meter, cursor := s.head.cursor } = s.head := rfl

theorem markOffset_eq (h : Head) : h.markOffset = (match h.bound with
    | some b => (match b.marks with
      | some r => r.offset
      | none => 0)
    | none => 0) := by
  rw [Head.markOffset]
  rcases h.bound with _ | ⟨_, _, _, _, _ | _⟩ <;> rfl

/-- Settles O52: an event without a call on the head is as it stands or takes the wanted draw, and a draw is the record it makes, up to
the trigger test; the settings stay by the lemma that says so of every event's end. -/
theorem endOfEventTakesTheDraw : Obligations.EndOfEventTakesTheDraw := by
  have taken : ∀ {s : State} {u : DrawUnit}, s.head.flight = none → s.head.again = false → s.head.wanted = some u →
      u.draw ≤ s.line.store → settle s = takeDraw u s :=
    fun hf ha hw hc => ((settle_idle hf ha).2 _ hw).trans (if_pos hc)
  refine ⟨?_, ?_, ?_, ?_, ?_⟩
  · intro s ha h
    by_cases hf : s.head.flight = none
    · obtain ⟨none_wanted, wanted⟩ := settle_idle hf ha
      rcases h with h | h | ⟨u, hu, hs⟩
      · exact absurd hf h
      · exact none_wanted h
      · exact (wanted u hu).trans (if_neg (Nat.not_le.2 hs))
    · rw [settle_in_flight hf, ← ha]
  · intro s u hf ha hw hc t
    have draw : t = takeDraw u s := taken hf ha hw hc
    have head : t.head = s.headDrawn u := draw ▸ takeDraw_head u s
    have frame := takeDraw_frame u s
    rw [← draw] at frame
    have line := takeDraw_line u s
    rw [← draw] at line
    have stall : t.line.stall = none := by
      rw [draw, takeDraw_eq]
      exact triggerTest_stall rfl
    have blade : t.head.blade = if u.strokes = [] then s.head.blade else u.strokes := by
      rw [head]
      exact if_congr List.isEmpty_iff rfl rfl
    refine ⟨?_, ?_, ?_, ?_, blade, ?_, stall, ?_, ?_, ?_, (congrArg State.web frame :), (congrArg State.orders frame :),
      (congrArg State.chest frame :), (congrArg (fun y => y.line.state) frame :), (congrArg State.mem frame :),
      (congrArg State.port frame :)⟩
    · rw [line]; rfl
    · rw [head]; rfl
    · rw [head]; rfl
    · rw [head]; rfl
    · rw [line]; rfl
    · rw [head]; rfl
    · rw [head]; rfl
    · rw [head]; rfl
  · intro s t
    have same := (settle_sure s).same
    exact ⟨same.consts, same.clock, same.range, same.commanded, same.classes, same.par, same.cause, same.estop, same.drive,
      same.pending, same.bus⟩
  · intro s u hf ha hw hc t off
    have head : t.head = s.headDrawn u := (congrArg State.head (taken hf ha hw hc)).trans (takeDraw_head u s)
    have offset : s.head.markOffset = off := markOffset_eq s.head
    rw [head]
    refine ⟨by rw [State.headDrawn, offset], fun h => ?_, fun h => ?_, ?_⟩
    · rw [State.headDrawn, h]
      rfl
    · rw [State.headDrawn, h]
      exact ⟨rfl, rfl, rfl⟩
    · rw [← hf, ← hw]
      exact headDrawn_frame u s
  · intro s u hf ha hw hc t a c l runs
    have draw : t = takeDraw u s := taken hf ha hw hc
    have line := takeDraw_line u s
    rw [← draw] at line
    have latch : t.line.latchShut = latchAt c a s.line.latchShut := by rw [line]; rfl
    have judged : ∀ seq, (s.lineDrawn u seq).unwind = runs seq := by
      intro seq
      simp only [runs, latch, State.lineDrawn, moving_eq, bne_eq_decide_ne]
      rfl
    obtain ⟨shut, opens, stays⟩ := latchAt_cases c a s.line.latchShut
    rw [← latch] at shut opens stays
    refine ⟨shut, opens, stays, ?_, ?_, ?_⟩
    · have unwind : (s.draws u).line.unwind = runs s.turret.seq := judged _
      have stall : t.line.stall = (s.draws u).line.stall := by
        rw [draw, takeDraw_eq]
        exact triggerTest_stall rfl
      refine (triggerTest_retaken (draw.trans (takeDraw_eq u s))).trans ?_
      rw [unwind, ← stall]
      rfl
    · rw [draw, takeDraw_unwind, ← draw]
      exact judged _
    · rw [draw]
      exact takeDraw_frame u s

end Sys2Proof.Machine


/-! ### The head's part at the end of an event (O53) -/

namespace Sys2Proof.Machine

section HeadsPart

variable {s t : State}

/-- R66, R69: with a report that calls on the head and no unit in flight, an event ends with the head's part. -/
theorem settle_again (ha : s.head.again = true) (hf : s.head.flight = none) :
    settle s = { headGo s with head.again := false } := by
  simp only [settle, hf, ha, Option.isSome_none, Bool.false_eq_true, if_false, if_true]

/-- R63, R69: the head's part by the head's state. -/
theorem headGo_cases (s : State) :
    (s.head.state = .retracted → headGo s = s) ∧
    (s.head.state = .forming → headGo s = settleWanted s.head.wanted (wantFold { s with head.wanted := none })) ∧
    (s.head.state = .flat ∨ s.head.state = .aligning →
      headGo s = settleWanted s.head.wanted (boundary { s with head.wanted := none })) := by
  refine ⟨fun h => ?_, fun h => ?_, fun h => ?_⟩
  · rw [headGo, h]
  · rw [headGo, h]
  · rcases h with h | h <;> rw [headGo, h]

/-- R66, R142: what becomes of the wanted draw. -/
theorem settleWanted_cases (old : Option DrawUnit) (t : State) :
    (t.head.wanted = none → settleWanted old t = { t with line.starved := false, line.stall := none }) ∧
    (∀ u, t.head.wanted = some u →
      (u.draw ≤ t.line.store → settleWanted old t = takeDraw u t) ∧
      (t.line.store < u.draw → t.line.starved = true ∧ old = some u → settleWanted old t = t) ∧
      (t.line.store < u.draw → ¬ (t.line.starved = true ∧ old = some u) → settleWanted old t = starve t)) := by
  refine ⟨fun h => ?_, fun u h => ⟨fun hc => ?_, fun hc hs => ?_, fun hc hs => ?_⟩⟩ <;> rw [settleWanted, h]
  · have none_wanted : withdraw t = { t with line.starved := false, line.stall := none } := by rw [withdraw, ← h]
    exact none_wanted
  · exact if_pos hc
  · exact (if_neg (Nat.not_le.2 hc)).trans (if_pos hs)
  · exact (if_neg (Nat.not_le.2 hc)).trans (if_neg hs)

end HeadsPart

/-! ### The fold unit wanted and drawn (O53) -/

section FoldUnits

variable {p : Page} {c : Cursor} {g : Group} {faces : List Nat} {f : Nat}

theorem unitAt_motif (hc : c.part = .motif) (hg : p.groups[c.group - 1]? = some g) (hf : faces[c.group - 1]? = some f) :
    p.unitAt faces c = (g.consumption f, f, some g) := by
  have group : p.group c.group = some g := hg
  simp only [Page.unitAt, hc, group, List.getD_eq_getElem?_getD, hf, Option.getD_some]

theorem nextCursor_motif (hc : c.part = .motif) (hg : p.groups[c.group - 1]? = some g) : p.nextCursor c =
    if c.pleat < g.count then ⟨.motif, c.pass, c.group, c.pleat + 1⟩
    else if c.group < p.groups.length then ⟨.motif, c.pass, c.group + 1, 1⟩
    else if c.pass < p.motif then ⟨.motif, c.pass + 1, 1, 1⟩
    else if p.hem = 0 then ⟨.atEnd, 0, 0, 0⟩
    else ⟨.hem, 0, 0, 0⟩ := by
  have group : p.group c.group = some g := hg
  simp only [Page.nextCursor, hc, group, Option.map_some, Option.getD_some]

/-- R31: the strokes of a pleat by its kind: one at the end of the draw, or the first of two at its half. -/
theorem strokeList_cases (g : Group) (overtravel offset : Nat) :
    let stroke := fun (right : Bool) (pos : Nat) => (⟨g.depth + overtravel, right, pos + offset⟩ : Stroke)
    (g.kind = .flat → ∀ draw, g.strokeList draw overtravel offset = []) ∧
    (g.kind = .knifeLeft → ∀ draw, g.strokeList draw overtravel offset = [stroke false draw]) ∧
    (g.kind = .knifeRight → ∀ draw, g.strokeList draw overtravel offset = [stroke true draw]) ∧
    (g.kind = .box → ∀ draw, g.strokeList draw overtravel offset = [stroke true (draw / 2), stroke false draw]) ∧
    (g.kind = .invertedBox → ∀ draw, g.strokeList draw overtravel offset = [stroke false (draw / 2), stroke true draw]) := by
  refine ⟨fun h draw => ?_, fun h draw => ?_, fun h draw => ?_, fun h draw => ?_, fun h draw => ?_⟩ <;> rw [Group.strokeList, h] <;> rfl

/-- R22: the consumption of a pleat by its kind. -/
theorem consumption_cases (g : Group) (f : Nat) :
    (g.kind = .flat → g.consumption f = f) ∧
    (g.kind = .knifeLeft ∨ g.kind = .knifeRight → g.consumption f = f + 2 * g.depth) ∧
    (g.kind = .box ∨ g.kind = .invertedBox → g.consumption f = f + 4 * g.depth) := by
  refine ⟨fun h => ?_, fun h => ?_, fun h => ?_⟩
  · rw [Group.consumption, h, FoldKind.underlays, Nat.zero_mul, Nat.add_zero]
  · rcases h with h | h <;> rw [Group.consumption, h] <;> rfl
  · rcases h with h | h <;> rw [Group.consumption, h] <;> rfl

/-- R26, R29, R65: the fold unit wanted at the cursor, and what drawing it makes of the accumulators and the cursor. -/
theorem foldUnit_wanted_drawn {s : State} {a : Meter} {n w : Nat} {folded : Option Group} {next : Cursor}
    {strokes : Nat → List Stroke} (hp : s.boundPage = some p) (ha : s.head.meter = some a)
    (hu : p.unitAt a.faces s.head.cursor = (n, w, folded)) (hn : p.nextCursor s.head.cursor = next)
    (hs : ∀ draw, (folded.map (fun x => x.strokeList draw s.k.overtravel s.head.offset)).getD [] = strokes draw) :
    let d := scaled a.k (a.n + n) - a.m
    wantFold s = { s with head.wanted := some ⟨true, d, scaled a.k (a.w + w) - a.q, strokes d, none⟩ } ∧
    ∀ u : DrawUnit, u.fold = true →
      (takeDraw u s).head.cursor = next ∧ (takeDraw u s).head.meter = some (a.move n w) := by
  refine ⟨?_, fun u hf => ?_⟩
  · simp only [wantFold, hp, ha, Page.foldUnit, hu, ← hs]
    rfl
  · obtain ⟨_, _, meter, cursor⟩ := takeDraw_fold hp ha hf
    rw [hu] at meter
    exact ⟨cursor.trans hn, meter⟩

end FoldUnits

/-! ### The stages of a boundary (O53, O54) -/

/-- R75: a passage is due at the boundary. -/
def State.passageDue (s : State) : Prop :=
  ∃ a, s.head.arrival = some a ∧ s.head.passage = .none ∧ s.head.f + s.k.guardLen = a.pos

/-- A run of a purpose has run its length. -/
def Head.ended (h : Head) (p : Purpose) : Prop := ∃ r, h.run = some r ∧ r.purpose = p ∧ r.remaining = some 0

/-- R179: a gap owed is to begin. -/
def State.gapDue (s : State) : Prop := s.head.gapOwed = true ∧ s.line.state = .run ∧ s.head.passage = .none

/-- R69: the action a boundary takes once the runs that have ended are over and the passage and the gap due have begun. -/
def boundaryAct (t : State) : State :=
  match t.head.run with
  | some r =>
    if r.purpose = .guard ∨ r.purpose = .splice ∨ r.purpose = .gap then wantChunk r none t
    else
      match t.line.state with
      | .thread => threadStep t
      | .stopping => stopDrain t
      | _ => orderStep t
  | none =>
    match t.line.state with
    | .thread => threadStep t
    | .stopping => stopDrain t
    | _ => orderStep t

section Boundary

variable {s : State}

/-- R131: a boundary by MAP_FULL. -/
theorem boundary_eq (s : State) : boundary s =
    if s.line.holds.mapFull then s else boundaryAct (gapStep (beginPassage (endSplice (endGuard s)))) := rfl

theorem endGuard_eq_self (h : ¬ s.head.ended .guard) : endGuard s = s := by
  unfold endGuard
  split
  next r hr => exact if_neg (fun e => h ⟨r, hr, e⟩)
  next => rfl

theorem endSplice_eq_self (h : ¬ s.head.ended .splice) : endSplice s = s := by
  unfold endSplice
  split
  next r hr => exact if_neg (fun e => h ⟨r, hr, e⟩)
  next => rfl

theorem beginPassage_eq_self (h : ¬ s.passageDue) : beginPassage s = s := by
  unfold beginPassage
  split
  next a ha => exact if_neg (fun e => h ⟨a, ha, e⟩)
  next => rfl

/-- R75: the passage begins. -/
theorem beginPassage_due {a : Arrival} (ha : s.head.arrival = some a) (hp : s.head.passage = .none)
    (hf : s.head.f + s.k.guardLen = a.pos) : beginPassage s = { s with
      head.passage := .guard, head.suspended := s.head.run, head.run := some (newRun .guard (some s.k.guardLen)) } := by
  rw [beginPassage, ha]
  exact if_pos ⟨hp, hf⟩

/-- R69: a GAP run that has run its length is over. -/
def endGap (s : State) : State :=
  match s.head.run with
  | some r => if r.purpose = .gap ∧ r.remaining = some 0 then { s with head.run := none } else s
  | none => s

theorem endGap_ended (h : s.head.ended .gap) : endGap s = { s with head.run := none } := by
  obtain ⟨r, hr, hp, h0⟩ := h
  rw [endGap, hr]
  exact if_pos ⟨hp, h0⟩

theorem endGap_eq_self (h : ¬ s.head.ended .gap) : endGap s = s := by
  unfold endGap
  split
  next r hr => exact if_neg (fun e => h ⟨r, hr, e⟩)
  next => rfl

/-- R69, R179: a GAP run that has run is over, and then the owed gap begins where it is due. -/
theorem gapStep_eq (s : State) : (s.gapDue → gapStep s = { s with head.gapOwed := false, head.run := s.gapRun }) ∧
    (¬ s.gapDue → gapStep s = endGap s) := by
  have begins : gapStep s = if (endGap s).head.gapOwed ∧ (endGap s).line.state = .run ∧ (endGap s).head.passage = .none then
      { endGap s with head.gapOwed := false, head.run := (endGap s).gapRun } else endGap s := rfl
  rw [begins]
  by_cases h : s.head.ended .gap
  · rw [endGap_ended h]
    exact ⟨fun hd => if_pos hd, fun hd => if_neg hd⟩
  · rw [endGap_eq_self h]
    exact ⟨fun hd => if_pos hd, fun hd => if_neg hd⟩

/-- R69: with nothing of a passage ended or due the boundary begins with the gap. -/
theorem boundary_no_passage (hm : s.line.holds.mapFull = false) (hg : ¬ s.head.ended .guard) (hs : ¬ s.head.ended .splice)
    (hd : ¬ s.passageDue) : boundary s = boundaryAct (gapStep s) := by
  rw [boundary_eq, hm, endGuard_eq_self hg, endSplice_eq_self hs, beginPassage_eq_self hd]
  rfl

/-- R69: a run of a passage or a gap goes on. -/
theorem boundaryAct_run {r : Run} (hr : s.head.run = some r) (hp : r.purpose = .guard ∨ r.purpose = .splice ∨ r.purpose = .gap) :
    boundaryAct s = wantChunk r none s := by
  rw [boundaryAct, hr]
  exact if_pos hp

/-- R69: with no run of a passage and no gap the line's state decides. -/
theorem boundaryAct_free (h : ∀ r, s.head.run = some r → ¬ (r.purpose = .guard ∨ r.purpose = .splice ∨ r.purpose = .gap)) :
    (s.line.state = .thread → boundaryAct s = threadStep s) ∧ (s.line.state = .stopping → boundaryAct s = stopDrain s) ∧
    (s.line.state = .run → boundaryAct s = orderStep s) := by
  have acts : boundaryAct s = match s.line.state with
      | .thread => threadStep s
      | .stopping => stopDrain s
      | _ => orderStep s := by
    unfold boundaryAct
    split
    next r hr => exact if_neg (h r hr)
    next => rfl
  rw [acts]
  refine ⟨fun hl => ?_, fun hl => ?_, fun hl => ?_⟩ <;> rw [hl]

/-- R69: a GAP run that has run is forgotten, whatever then begins. -/
theorem boundary_gap_ended (h : s.head.ended .gap) (hd : ¬ s.passageDue) (hm : s.line.holds.mapFull = false) :
    boundary s = boundary { s with head.run := none } := by
  have other : ∀ p, p ≠ .gap → ¬ s.head.ended p := by
    rintro p hp ⟨r, hr, rfl, _⟩
    obtain ⟨q, hq, hgap, _⟩ := h
    rw [hr] at hq
    exact hp (by rw [Option.some.inj hq, hgap])
  have forgotten : gapStep s = gapStep { s with head.run := none } := by
    by_cases hdue : s.gapDue
    · rw [(gapStep_eq s).1 hdue, (gapStep_eq { s with head.run := none }).1 hdue]
      rfl
    · rw [(gapStep_eq s).2 hdue, (gapStep_eq { s with head.run := none }).2 hdue, endGap_ended h]
      rfl
  rw [boundary_no_passage hm (other _ nofun) (other _ nofun) hd, forgotten]
  exact (boundary_no_passage (s := { s with head.run := none }) hm nofun nofun hd).symm

/-- R179: the owed gap has begun, and the boundary goes on from there. -/
theorem boundary_gap_owed (h : s.gapDue) (hg : ¬ s.head.ended .guard) (hs : ¬ s.head.ended .splice) (hd : ¬ s.passageDue)
    (hm : s.line.holds.mapFull = false) :
    boundary s = boundary { s with head.gapOwed := false, head.run := s.gapRun } := by
  have length : ∀ r, s.gapRun = some r → r.purpose = .gap ∧ r.remaining ≠ some 0 := by
    intro r hr
    unfold State.gapRun at hr
    split at hr
    · cases hr
    next hk =>
      cases hr
      exact ⟨rfl, fun e => hk (Option.some.inj e)⟩
  have fresh : ∀ p, ¬ Head.ended { s.head with gapOwed := false, run := s.gapRun } p :=
    fun p ⟨r, hr, _, h0⟩ => (length r hr).2 h0
  have paid : ¬ State.gapDue { s with head.gapOwed := false, head.run := s.gapRun } := fun hdue => Bool.false_ne_true hdue.1
  have begun := (gapStep_eq { s with head.gapOwed := false, head.run := s.gapRun }).2 paid
  rw [endGap_eq_self (fresh _)] at begun
  rw [boundary_no_passage hm hg hs hd, (gapStep_eq s).1 h]
  exact ((boundary_no_passage (s := { s with head.gapOwed := false, head.run := s.gapRun }) hm (fresh _) (fresh _) hd).trans
    (congrArg boundaryAct begun)).symm

/-- R69, R179: with nothing ended, due or owed the boundary acts at once. -/
theorem boundary_settled (he : ∀ p, ¬ s.head.ended p) (hd : ¬ s.passageDue) (ho : ¬ s.gapDue)
    (hm : s.line.holds.mapFull = false) : boundary s = boundaryAct s := by
  rw [boundary_no_passage hm (he _) (he _) hd, (gapStep_eq s).2 ho, endGap_eq_self (he _)]

/-- R54, R70, R79: the order step, with an order bound and without. -/
theorem orderStep_cases (s : State) :
    (∀ b, s.head.bound = some b → orderStep s = startTests b s) ∧
    (s.head.bound = none → let t := askOrder s.orders.length s
      (∀ b, t.head.bound = some b → orderStep s = startTests b t) ∧ (t.head.bound = none → orderStep s = orderDrain t)) := by
  refine ⟨fun b hb => ?_, fun hb => ⟨fun b ht => ?_, fun ht => ?_⟩⟩
  · simp only [orderStep, hb]
  · simp only [orderStep, hb, ht]
  · simp only [orderStep, hb, ht]

end Boundary

/-- Settles O53: the head's part by the head's state, a boundary by what is ended, due or owed, and a fold unit by the section of the
cursor and the kind of the group. -/
theorem boundaryTakesTheFirstAction : Obligations.BoundaryTakesTheFirstAction := by
  refine ⟨?_, ?_, ?_, fun p letter size k => ⟨rfl, rfl⟩, ?_⟩
  · intro s ha
    obtain ⟨waits, forming, flat⟩ := headGo_cases s
    refine ⟨fun h => ?_, fun t hf ht => ?_⟩
    · by_cases hf : s.head.flight = none
      · rw [settle_again ha hf, waits (h.resolve_left (not_not.2 hf))]
      · exact settle_in_flight hf
    · have part : settle s = { settleWanted s.head.wanted t with head.again := false } := by
        rw [settle_again ha hf]
        rcases ht with ⟨hs, rfl⟩ | ⟨hs, rfl⟩
        · rw [forming hs]
        · rw [flat hs]
      obtain ⟨unwanted, wanted⟩ := settleWanted_cases s.head.wanted t
      rw [part]
      refine ⟨fun hw => by rw [unwanted hw], fun u hu => ?_⟩
      obtain ⟨drawn, starved, starves⟩ := wanted u hu
      exact ⟨fun hc => by rw [drawn hc], fun hc h1 h2 => by rw [starved hc ⟨h1, h2⟩], fun hc h => by rw [starves hc h]; rfl⟩
  · intro s due is ended owed free
    have is_of_ended : ∀ p, s.head.ended p → is p ∧ ended := fun p ⟨r, hr, hp, h0⟩ => ⟨⟨r, hr, hp⟩, ⟨r, hr, h0⟩⟩
    have acts : free → boundary s = boundaryAct s ∧
        ∀ r, s.head.run = some r → ¬ (r.purpose = .guard ∨ r.purpose = .splice ∨ r.purpose = .gap) := by
      rintro ⟨hm, hd, ho, h1, h2, h3⟩
      have none_ends : ∀ p, p = .guard ∨ p = .splice ∨ p = .gap → ¬ is p := by rintro p (rfl | rfl | rfl) <;> assumption
      refine ⟨?_, fun r hr hp => none_ends _ hp ⟨r, hr, rfl⟩⟩
      rw [boundary_no_passage hm (fun e => h1 (is_of_ended _ e).1) (fun e => h2 (is_of_ended _ e).1) hd, (gapStep_eq s).2 ho,
        endGap_eq_self (fun e => h3 (is_of_ended _ e).1)]
    obtain ⟨bound, unbound⟩ := orderStep_cases s
    refine ⟨fun hm => ?_, fun hm hd ho he r hr hp => ?_, fun hm hd ⟨r, hr, hp⟩ ⟨q, hq, h0⟩ => ?_, fun k hm hd ho h1 h2 hk => ?_,
      fun hf hl ha => ?_, fun a hf hl ha => ?_, fun hf hl => ?_, fun b hf hl hb => ?_, fun hf hl hb => ?_⟩
    · rw [boundary_eq, hm]
      rfl
    · rw [boundary_settled (fun p e => he (is_of_ended p e).2) hd ho hm]
      exact boundaryAct_run hr hp
    · rw [hr] at hq
      cases hq
      exact boundary_gap_ended ⟨r, hr, hp, h0⟩ hd hm
    · have gap : s.gapRun = if k.gap = 0 then none else some ⟨.gap, some k.gap, false, none⟩ := by
        rw [State.gapRun, k_of_consts hk]
        rfl
      rw [← gap]
      exact boundary_gap_owed ho (fun e => h1 (is_of_ended _ e).1) (fun e => h2 (is_of_ended _ e).1) hd hm
    · obtain ⟨act, runs⟩ := acts hf
      rw [act, (boundaryAct_free runs).1 hl, threadStep, ha]
    · obtain ⟨act, runs⟩ := acts hf
      rw [act, (boundaryAct_free runs).1 hl, threadStep, ha]
    · obtain ⟨act, runs⟩ := acts hf
      exact act.trans ((boundaryAct_free runs).2.1 hl)
    · obtain ⟨act, runs⟩ := acts hf
      exact act.trans (((boundaryAct_free runs).2.2 hl).trans (bound b hb))
    · obtain ⟨act, runs⟩ := acts hf
      obtain ⟨starts, drains⟩ := unbound hb
      rw [act, (boundaryAct_free runs).2.2 hl]
      exact ⟨starts, drains⟩
  · intro s p a hp ha c scale wants moves
    have unit : ∀ n w folded next strokes, p.unitAt a.faces c = (n, w, folded) → p.nextCursor c = next →
        (∀ draw, (folded.map (fun x => x.strokeList draw s.k.overtravel s.head.offset)).getD [] = strokes draw) →
        wants n w strokes ∧ moves n w next :=
      fun n w folded next strokes hu hn hs => foldUnit_wanted_drawn hp ha hu hn hs
    refine ⟨fun hc => unit _ _ none _ _ ?_ ?_ (fun _ => rfl), fun hc => unit _ _ none _ _ ?_ ?_ (fun _ => rfl), ?_⟩
    · rw [Page.unitAt, hc]
    · rw [Page.nextCursor, hc]
      rfl
    · rw [Page.unitAt, hc]
    · rw [Page.nextCursor, hc]
    · intro g f hc hg hf stroke next
      have pleat : ∀ n strokes, g.consumption f = n → (∀ draw, g.strokeList draw s.k.overtravel s.head.offset = strokes draw) →
          wants n f strokes ∧ moves n f next := by
        rintro n strokes rfl hs
        exact unit _ _ (some g) _ _ (unitAt_motif hc hg hf) (nextCursor_motif hc hg) hs
      obtain ⟨flat, left, right, box, inverted⟩ := strokeList_cases g s.k.overtravel s.head.offset
      obtain ⟨none_hidden, two_hidden, four_hidden⟩ := consumption_cases g f
      exact ⟨fun h => pleat _ _ (none_hidden h) (flat h), fun h => pleat _ _ (two_hidden (.inl h)) (left h),
        fun h => pleat _ _ (two_hidden (.inr h)) (right h), fun h => pleat _ _ (four_hidden (.inl h)) (box h),
        fun h => pleat _ _ (four_hidden (.inr h)) (inverted h)⟩
  · intro s p
    refine ⟨fun h => by rw [State.boundPage, h], fun b h => by rw [State.boundPage, h], fun r hr hp => ?_, fun h => ?_⟩
    · rw [State.runOf, hr]
      exact if_pos hp
    · unfold State.runOf
      split
      next r hr => exact if_neg (h r hr)
      next => rfl

end Sys2Proof.Machine


/-! ### Chunks of flat runs (O28, O54) -/

namespace Sys2Proof.Machine

/-- The draw that a run wants, of a unit that the state with the run's segment open gives. -/
def wantFrom (r : Run) (unit : State → DrawUnit) (s : State) : State :=
  if s.bladeRoll.isNone then s
  else
    let t := openRun r { s with head.run := some r }
    if t.2 then { t.1 with head.wanted := some (unit t.1) } else t.1

theorem wantChunk_eq (r : Run) (seek : Option Nat) :
    wantChunk r seek = wantFrom r (fun t => flatUnit (t.chunkFor Config.chunkLen r seek)) := rfl

theorem wantTrial_eq (r : Run) (a : Align) :
    wantTrial r a = wantFrom r (fun t => t.trialUnit a.step (t.chunkFor Config.trialLen r none)) := rfl

/-- R68: what the length of a chunk is taken from. -/
structure SameChunks (s t : State) : Prop where
  f : t.head.f = s.head.f
  arrival : t.head.arrival = s.head.arrival
  passage : t.head.passage = s.head.passage
  consts : t.line.consts = s.line.consts

theorem SameChunks.k {s t : State} (h : SameChunks s t) : t.k = s.k := by rw [State.k, State.k, h.consts]

theorem SameChunks.chunkFor {s t : State} (h : SameChunks s t) (most : Nat) (r : Run) (seek : Option Nat) :
    t.chunkFor most r seek = s.chunkFor most r seek := by
  simp only [State.chunkFor, State.guardPoint, h.f, h.arrival, h.passage, h.k]

section Runs

variable {s : State} {r : Run} {unit : State → DrawUnit}

/-- R68: with no blade roll nothing is drawn. -/
theorem wantFrom_no_roll (h : s.bladeRoll = none) : wantFrom r unit s = s := if_pos (Option.isNone_iff_eq_none.2 h)

/-- R68: before the first chunk of a run its segment is opened; a full map raises MAP_FULL for one place. -/
theorem openRun_cases {roll : Nat} (hb : s.bladeRoll = some roll) :
    (r.opened = true → openRun r s = (s, true)) ∧
    (r.opened = false →
      (openSeg r.purpose.segKind (r.roll.getD roll) none s = none →
        openRun r s = (raiseReason .mapFull { s with head.mapNeed := 1 }, false)) ∧
      (∀ t, openSeg r.purpose.segKind (r.roll.getD roll) none s = some t →
        openRun r s = ({ t with head.run := some { r with opened := true } }, true))) := by
  have named : r.roll.or s.bladeRoll = some (r.roll.getD roll) := by
    rw [hb]
    cases r.roll <;> rfl
  refine ⟨fun ho => if_pos ho, fun ho => ⟨fun hfull => ?_, fun t ht => ?_⟩⟩
  · simp only [openRun, ho, Bool.false_eq_true, if_false, named, hfull]
  · simp only [openRun, ho, Bool.false_eq_true, if_false, named, ht]

/-- R68: a run whose segment is open wants its unit; another has its segment opened first, and a full map raises MAP_FULL. -/
theorem wantFrom_cases {roll : Nat} (hb : s.bladeRoll = some roll) (hu : ∀ t, SameChunks s t → unit t = unit s) :
    (r.opened = true → wantFrom r unit s = { s with head.run := some r, head.wanted := some (unit s) }) ∧
    (r.opened = false →
      (openSeg r.purpose.segKind (r.roll.getD roll) none { s with head.run := some r } = none →
        wantFrom r unit s = raiseReason .mapFull { s with head.run := some r, head.mapNeed := 1 }) ∧
      (∀ t, openSeg r.purpose.segKind (r.roll.getD roll) none { s with head.run := some r } = some t → SameChunks s t →
        wantFrom r unit s = { t with head.run := some { r with opened := true }, head.wanted := some (unit s) })) := by
  have wanted : wantFrom r unit s = let t := openRun r { s with head.run := some r }
      if t.2 then { t.1 with head.wanted := some (unit t.1) } else t.1 := if_neg (by simp [hb])
  obtain ⟨isOpen, shut⟩ := openRun_cases (s := { s with head.run := some r }) (r := r) hb
  rw [wanted]
  refine ⟨fun ho => ?_, fun ho => ⟨fun hfull => ?_, fun t ht same => ?_⟩⟩
  · rw [isOpen ho, ← hu { s with head.run := some r } ⟨rfl, rfl, rfl, rfl⟩]
    rfl
  · rw [(shut ho).1 hfull]
    rfl
  · have alike : SameChunks s { t with head.run := some { r with opened := true } } :=
      ⟨same.f, same.arrival, same.passage, same.consts⟩
    rw [(shut ho).2 t ht, ← hu _ alike]
    rfl

/-- R68: the room for a chunk of at most so many units: what the run has left, ended at the guard point when that lies ahead. -/
theorem chunkFor_eq {k : Consts} (hk : s.line.consts = some k) (most : Nat) (r : Run) (seek : Option Nat) :
    s.chunkFor most r seek =
      let room := match r.remaining with
        | some n => min most n
        | none => most
      let near := match s.head.arrival, s.head.passage with
        | some a, .none => if s.head.f < a.pos - k.guardLen then min room (a.pos - k.guardLen - s.head.f) else room
        | _, _ => room
      match seek with
      | some q => if s.head.f < q then min near (q - s.head.f) else near
      | none => near := by
  have least : ∀ point, (match r.remaining with
      | some n => min (upTo s.head.f point most) n
      | none => upTo s.head.f point most) = upTo s.head.f point (match r.remaining with
        | some n => min most n
        | none => most) := by
    intro point
    cases r.remaining with
    | none => rfl
    | some n =>
      cases point with
      | none => rfl
      | some p =>
        simp only [upTo]
        split <;> omega
  have guarded : ∀ room, upTo s.head.f s.guardPoint room = (match s.head.arrival, s.head.passage with
      | some a, .none => if s.head.f < a.pos - k.guardLen then min room (a.pos - k.guardLen - s.head.f) else room
      | _, _ => room) := by
    intro room
    rw [State.guardPoint, k_of_consts hk]
    cases s.head.arrival <;> cases s.head.passage <;> rfl
  have stopped : s.chunkFor most r seek = upTo s.head.f seek (match r.remaining with
      | some n => min (upTo s.head.f s.guardPoint most) n
      | none => upTo s.head.f s.guardPoint most) := rfl
  rw [stopped, least, guarded]
  cases seek <;> rfl

/-- R30, R68: a chunk of a run wanted, by its length. -/
theorem wantChunk_cases {roll len : Nat} {seek : Option Nat} (hb : s.bladeRoll = some roll)
    (hl : s.chunkFor Config.chunkLen r seek = len) :
    let wants := fun (t : State) => { t with head.wanted := some (flatUnit len) }
    (r.opened = true → wantChunk r seek s = wants { s with head.run := some r }) ∧
    (r.opened = false →
      let opened := openSeg r.purpose.segKind (r.roll.getD roll) none { s with head.run := some r }
      (opened = none → wantChunk r seek s = raiseReason .mapFull { s with head.run := some r, head.mapNeed := 1 }) ∧
      (∀ t, opened = some t → t.head.f = s.head.f → t.head.arrival = s.head.arrival → t.head.passage = s.head.passage →
        t.line.consts = s.line.consts → wantChunk r seek s = wants { t with head.run := some { r with opened := true } })) := by
  subst hl
  have unit : ∀ t, SameChunks s t →
      flatUnit (t.chunkFor Config.chunkLen r seek) = flatUnit (s.chunkFor Config.chunkLen r seek) :=
    fun t h => by rw [h.chunkFor]
  rw [wantChunk_eq]
  obtain ⟨isOpen, shut⟩ := wantFrom_cases hb unit
  exact ⟨isOpen, fun ho => ⟨(shut ho).1, fun t ht hf ha hp hc => (shut ho).2 t ht ⟨hf, ha, hp, hc⟩⟩⟩

end Runs

/-- R68: the roll that chunks draw from. -/
theorem bladeRoll_cases (s : State) :
    (∀ older g, s.web.segs = older ++ [g] → s.bladeRoll = some g.roll) ∧
    (∀ r, s.web.segs = [] → s.runningRoll = some r → s.bladeRoll = some r.tag) ∧
    (s.web.segs = [] → s.runningRoll = none → s.bladeRoll = none) := by
  refine ⟨fun older g h => ?_, fun r h hr => ?_, fun h hr => ?_⟩
  · rw [State.bladeRoll, State.newestSeg, h, List.getLast?_concat]
  · rw [State.bladeRoll, State.newestSeg, h, hr]
    rfl
  · rw [State.bladeRoll, State.newestSeg, h, hr]
    rfl

/-! ### The passage of a splice (O54) -/

section Passages

variable {s : State} {k : Consts} (hm : s.line.holds.mapFull = false) (hk : s.line.consts = some k)
include hm hk

/-- R69, R75: the passage begins, and its GUARD run is drawn. -/
theorem boundary_begins_passage {a : Arrival} (ha : s.head.arrival = some a) (hp : s.head.passage = .none)
    (hf : s.head.f + k.guardLen = a.pos) (hr : ∀ r, s.head.run = some r → r.purpose ≠ .guard ∧ r.purpose ≠ .splice) :
    let r := newRun .guard (some k.guardLen)
    boundary s = wantChunk r none { s with head.passage := .guard, head.suspended := s.head.run, head.run := some r } := by
  intro r
  let begun : State := { s with head.passage := .guard, head.suspended := s.head.run, head.run := some r }
  have no_guard : ¬ s.head.ended .guard := fun ⟨q, hq, h, _⟩ => (hr q hq).1 h
  have no_splice : ¬ s.head.ended .splice := fun ⟨q, hq, h, _⟩ => (hr q hq).2 h
  have begins : beginPassage s = begun := by
    rw [← k_of_consts hk] at hf
    rw [beginPassage_due ha hp hf, k_of_consts hk]
  have waits : gapStep begun = begun := by
    rw [(gapStep_eq begun).2 (fun h => nomatch h.2.2), endGap_eq_self]
    rintro ⟨q, hq, h, _⟩
    cases hq
    cases h
  rw [boundary_eq, hm, endGuard_eq_self no_guard, endSplice_eq_self no_splice, begins, waits]
  exact boundaryAct_run (s := begun) (r := r) rfl (.inl rfl)

/-- R75, stage 2: the GUARD run has run its length, and the SPLICE run is drawn under the incoming roll. -/
theorem boundary_ends_guard {g : Run} {a : Arrival} (hg : s.head.run = some g) (hp : g.purpose = .guard)
    (h0 : g.remaining = some 0) (ha : s.head.arrival = some a) :
    let r : Run := ⟨.splice, some (max 1000 (k.overlap + k.guardLen)), false, some a.roll⟩
    boundary s = wantChunk r none
      (triggerTest { s with head.passage := .splice, head.arrival := none, head.run := some r }) := by
  intro r
  let t : State := triggerTest { s with head.passage := .splice, head.arrival := none, head.run := some r }
  have head : t.head = { s.head with passage := .splice, arrival := none, run := some r } := triggerTest_head _
  have ends : endGuard s = t := by
    rw [endGuard, hg]
    refine (if_pos ⟨hp, h0⟩).trans ?_
    rw [ha, State.spliceLen, k_of_consts hk]
    rfl
  have splices : t.head.run = some r := by rw [head]
  have no_end : ∀ p, ¬ t.head.ended p := by
    rintro p ⟨q, hq, _, hz⟩
    rw [splices] at hq
    cases hq
    have long : 1000 ≤ max 1000 (k.overlap + k.guardLen) := Nat.le_max_left _ _
    rw [Option.some.inj hz] at long
    omega
  have no_passage : ¬ t.passageDue := by
    rintro ⟨b, hb, _, _⟩
    rw [head] at hb
    cases hb
  have no_gap : ¬ t.gapDue := by
    rintro ⟨_, _, hnone⟩
    rw [head] at hnone
    cases hnone
  rw [boundary_eq, hm, ends, endSplice_eq_self (no_end _), beginPassage_eq_self no_passage, (gapStep_eq t).2 no_gap,
    endGap_eq_self (no_end _)]
  exact boundaryAct_run splices (.inr (.inl rfl))

omit hk in
/-- R75: the SPLICE run has run its length, and the boundary goes on with the suspended run. -/
theorem boundary_ends_splice {g : Run} (hg : s.head.run = some g) (hp : g.purpose = .splice) (h0 : g.remaining = some 0)
    (hr : ∀ r, s.head.suspended = some r → r.purpose ≠ .guard ∧ r.purpose ≠ .splice) :
    boundary s = boundary { s with
      head.passage := .none, head.suspended := none
      head.run := s.head.suspended.map (fun r => { r with opened := false }) } := by
  let resumed : State := { s with
    head.passage := .none, head.suspended := none, head.run := s.head.suspended.map (fun r => { r with opened := false }) }
  have no_guard : ¬ s.head.ended .guard := by
    rintro ⟨q, hq, h, _⟩
    rw [hg] at hq
    cases hq
    rw [hp] at h
    cases h
  have ends : endSplice s = resumed := by
    rw [endSplice, hg]
    exact if_pos ⟨hp, h0⟩
  have other : ∀ q, resumed.head.run = some q → q.purpose ≠ .guard ∧ q.purpose ≠ .splice := by
    intro q hq
    obtain ⟨y, hy, rfl⟩ := Option.map_eq_some_iff.1 hq
    exact hr y hy
  have stays : endSplice (endGuard resumed) = resumed := by
    rw [endGuard_eq_self (fun ⟨q, hq, h, _⟩ => (other q hq).1 h), endSplice_eq_self (fun ⟨q, hq, h, _⟩ => (other q hq).2 h)]
  have resumes : boundary resumed = boundaryAct (gapStep (beginPassage resumed)) := by
    rw [boundary_eq, show resumed.line.holds.mapFull = false from hm, stays]
    rfl
  rw [boundary_eq, hm, endGuard_eq_self no_guard, ends]
  exact resumes.symm

end Passages

/-- Settles O54: the boundary by the stage of the passage, and a chunk by its length and whether its run's segment is open. -/
theorem passageOfASplice : Obligations.PassageOfASplice := by
  refine ⟨fun s k hm hk => ⟨fun a ha hp hf hr => boundary_begins_passage hm hk ha hp hf hr,
    fun g a hg hp h0 ha => boundary_ends_guard hm hk hg hp h0 ha, fun g hg hp h0 hr => boundary_ends_splice hm hg hp h0 hr⟩,
    ?_, ?_, fun s => ?_⟩
  · intro s k r roll hk hb room len wants
    exact wantChunk_cases hb (chunkFor_eq hk _ r none)
  · intro s k r roll q hk hb room near len wants
    exact wantChunk_cases hb (chunkFor_eq hk _ r (some q))
  · obtain ⟨newest, running, unthreaded⟩ := bladeRoll_cases s
    refine ⟨newest, running, unthreaded, fun r a seek h => ⟨?_, ?_⟩⟩
    · rw [wantChunk_eq, wantFrom_no_roll h]
    · rw [wantTrial_eq, wantFrom_no_roll h]

end Sys2Proof.Machine


/-! ### Reports of the metering encoder, the blade and the mark sensor (O48) -/

namespace Sys2Proof.Machine

section HeadReports

variable {s : State} {fl : Flight}

/-- R66: the unit in flight completes once its draw has ended and it waits for no pleat-done. -/
theorem completeIfDone_cases (hf : s.head.flight = some fl) :
    (fl.drawEnd = true → fl.unit.strokes = [] ∨ fl.results ≠ none → completeIfDone s = completeUnit fl s) ∧
    (fl.drawEnd = true → fl.unit.strokes ≠ [] → fl.results = none → completeIfDone s = s) ∧
    (fl.drawEnd = false → completeIfDone s = s) := by
  have done : completeIfDone s = if fl.drawEnd = true ∧ (fl.unit.strokes = [] ∨ fl.results ≠ none) then completeUnit fl s else s := by
    rw [completeIfDone, hf]
    simp only [List.isEmpty_iff, Option.isSome_iff_ne_none]
  rw [done]
  exact ⟨fun hd h => if_pos ⟨hd, h⟩, fun _ h1 h2 => if_neg (fun h => h.2.elim h1 (fun h => h h2)),
    fun hd => if_neg (fun h => Bool.false_ne_true (hd.symm.trans h.1))⟩

/-- R66, R81: a metering advance: discarded while a cut unit owes travel, or counted for the unit in flight. -/
theorem meterTravel_cases (n : Nat) (s : State) :
    (s.head.late.travel ≠ 0 → meterTravel n s = { s with head.late := ⟨s.head.late.travel - n, s.head.late.pleats⟩ }) ∧
    (s.head.late.travel = 0 → s.head.flight = none → meterTravel n s = s) ∧
    (∀ fl, s.head.late.travel = 0 → s.head.flight = some fl → meterTravel n s = completeIfDone { s with
      head.flight := some { fl with
        travel := min fl.unit.draw (fl.travel + n), drawEnd := fl.drawEnd || decide (fl.unit.draw ≤ fl.travel + n) } }) := by
  refine ⟨fun h => if_neg h, fun h hf => (if_pos h).trans ?_, fun fl h hf => (if_pos h).trans ?_⟩
  · rw [countTravel, hf]
  · rw [countTravel, hf]

/-- R66: a flat unit that completes reports its output first; R85: then the first result of a trial decides it. -/
theorem completeUnit_flat (hf : fl.unit.fold = false) :
    let w := reportOutput fl.unit.output { s with head.flight := none, head.again := true }
    (fl.unit.trial = none → completeUnit fl s = w) ∧
    (∀ step, fl.unit.trial = some step → completeUnit fl s = trialOutcome step ((fl.results.getD []).headD .absent) w) := by
  have flat : ¬ fl.unit.fold = true := Bool.eq_false_iff.1 hf
  refine ⟨fun ht => ?_, fun step ht => ?_⟩
  · rw [completeUnit, if_neg flat, ht]
    rfl
  · rw [completeUnit, if_neg flat, ht]
    rfl

/-- R67: which pleat-done reports are discarded, and what becomes of the others. -/
theorem pleatTaken_cases (rs : List Crease) (s : State) :
    (s.head.flight = none → pleatTaken rs s = { s with head.blade := [] }) ∧
    (∀ fl, s.head.flight = some fl →
      (fl.unit.strokes = [] ∨ fl.results ≠ none → pleatTaken rs s = { s with head.blade := [] }) ∧
      (fl.unit.strokes ≠ [] → fl.results = none → pleatTaken rs s =
        let t := takeResults rs fl { s with head.blade := [] }
        if s.missesRaise rs fl then raiseHalt .missedFolds t else t)) := by
  refine ⟨fun hf => by rw [pleatTaken, hf], fun fl hf => ⟨fun h => ?_, fun h1 h2 => ?_⟩⟩ <;> rw [pleatTaken, hf]
  · exact if_pos (by rwa [List.isEmpty_iff, Option.isSome_iff_ne_none])
  · exact if_neg (by rw [List.isEmpty_iff, h2]; simp [h1])

/-- R81, R82: a pleat-done that a cut unit owed is discarded; the strokes of a later unit stay while they are due. -/
theorem dropPleat_cases (s : State) :
    let due := ∃ fl, s.head.flight = some fl ∧ fl.unit.strokes ≠ [] ∧ fl.results = none
    let rest : Late := ⟨s.head.late.travel, s.head.late.pleats - 1⟩
    (due → dropPleat s = { s with head.late := rest }) ∧
    (¬ due → dropPleat s = { s with head.late := rest, head.blade := [] }) := by
  intro due rest
  have kept : dropPleat s = { s with head.late := rest, head.blade := if due then s.head.blade else [] } := by
    have due_iff : (s.head.flight.any (fun fl => !fl.unit.strokes.isEmpty && fl.results.isNone)) = true ↔ due := by
      simp [due, Option.any_eq_true]
    rw [dropPleat, if_congr due_iff rfl rfl]
  rw [kept]
  exact ⟨fun h => by rw [if_pos h], fun h => by rw [if_neg h]⟩

/-- R66, R67: the unit in flight with its results taken, completing if its draw has ended. -/
theorem answered_completes {t : State} (ht : t.head.flight = some fl) (hr : fl.results ≠ none) :
    completeIfDone t = if fl.drawEnd = true then completeUnit fl t else t := by
  obtain ⟨completes, _, waits⟩ := completeIfDone_cases ht
  cases hd : fl.drawEnd
  · exact waits hd
  · exact completes hd (.inr hr)

/-- R67, R94: the results of a flat unit are its own; those of a fold unit are counted in the panel's record and the absent run. -/
theorem takeResults_flat {rs : List Crease} {t : State} (hf : fl.unit.fold = false) : takeResults rs fl t =
    completeIfDone { t with head.flight := some { fl with results := some (readResults fl.unit.strokes.length rs) } } := by
  simp only [takeResults, hf, Bool.false_eq_true, if_false]

theorem takeResults_fold {rs : List Crease} {t : State} {id : Nat} (hf : fl.unit.fold = true) (hp : t.head.panel = some id) :
    takeResults rs fl t =
      let got := readResults fl.unit.strokes.length rs
      let ok := got.countP (fun c => c == .present)
      let now : State := { t with head.flight := some { fl with results := some got } }
      completeIfDone { now.mapPanel id (fun p => { p with formed := p.formed + ok, missed := p.missed + (got.length - ok) }) with
        head.absent := (absentRun t.head.absent got).1 } := by
  have counted : ∀ got, countFolds got t = { t.mapPanel id (fun p => { p with
      formed := p.formed + got.countP (fun c => c == .present)
      missed := p.missed + (got.length - got.countP (fun c => c == .present)) }) with
      head.absent := (absentRun t.head.absent got).1 } := fun got => by rw [countFolds, hp]
  rw [takeResults, if_pos hf, counted]
  rfl

end HeadReports

/-- R67: the absent run after one more result. -/
theorem absentRun_cons (n : Nat) (c : Crease) (cs : List Crease) :
    absentRun n (.present :: cs) = absentRun 0 cs ∧
    (c ≠ .present → absentRun n (c :: cs) =
      ((absentRun (min 2 (n + 1)) cs).1, (absentRun (min 2 (n + 1)) cs).2 || n == 1)) :=
  ⟨if_pos rfl, fun h => if_neg h⟩

/-- Settles O48: each report by what a cut unit owes and by the unit in flight. -/
theorem headReportsTaken : Obligations.HeadReportsTaken := by
  have ended : ∀ {i : Instr} {s t u : State}, exec i s = .next (settle t) → t = u → exec i s = .next (settle u) :=
    fun h e => e ▸ h
  refine ⟨?_, ?_, ?_, ?_, ?_, ?_⟩
  · intro e n s u
    obtain ⟨owed, idle, counted⟩ := meterTravel_cases n u
    refine ⟨fun h => ended rfl (owed h), fun h hf => ended rfl (idle h hf), ?_⟩
    intro fl h hf ends now
    have travels : ∀ b t, (fl.drawEnd || decide (fl.unit.draw ≤ fl.travel + n)) = b → completeIfDone (now b) = t →
        exec (.meteringAdvance e n) s = .next (settle t) := by
      rintro b t rfl rfl
      exact ended rfl (counted fl h hf)
    have reached : ends → (fl.drawEnd || decide (fl.unit.draw ≤ fl.travel + n)) = true := by simp [ends]
    obtain ⟨completes, awaits, _⟩ := completeIfDone_cases (s := now true) rfl
    obtain ⟨_, _, goesOn⟩ := completeIfDone_cases (s := now false) rfl
    refine ⟨fun he => ?_, fun he hs hr => ?_, fun he hd => ?_⟩
    · exact travels false _ (by simpa [ends] using he) (goesOn rfl)
    · exact travels true _ (reached he) (awaits rfl hs hr)
    · exact travels true _ (reached he) (completes rfl hd)
  · intro fl s k hf ht hk h
    rw [(completeUnit_flat hf).1 ht]
    exact reportOutput_short hk h
  · intro e rs s u bare
    have reports : ∀ t, pleatReport rs u = t → exec (.pleatDone e rs) s = .next (settle t) := fun t ht => ended rfl ht
    obtain ⟨idle, flying⟩ := pleatTaken_cases rs u
    have taken : u.head.late.pleats = 0 → pleatReport rs u = pleatTaken rs u := fun h => if_pos h
    refine ⟨?_, fun h hf => reports _ ((taken h).trans (idle hf)), ?_⟩
    · intro h due rest
      have dropped := dropPleat_cases u
      have discarded : pleatReport rs u = dropPleat u := if_neg h
      exact ⟨fun hd => reports _ (discarded.trans (dropped.1 hd)), fun hd => reports _ (discarded.trans (dropped.2 hd))⟩
    · intro fl h hf got ok now fin
      obtain ⟨discarded, answered⟩ := flying fl hf
      refine ⟨fun hd => reports _ ((taken h).trans (discarded hd)), fun hs hr => ⟨fun hfold => ?_, ?_⟩⟩
      · have quiet : u.missesRaise rs fl = false := by simp [State.missesRaise, hfold]
        refine reports _ (((taken h).trans (answered hs hr)).trans ?_)
        simp only [quiet, Bool.false_eq_true, if_false, takeResults_flat hfold]
        exact answered_completes (t := now) rfl nofun
      · intro id k hfold hp hk counted
        have counts : takeResults rs fl bare = fin counted :=
          (takeResults_fold (t := bare) hfold hp).trans (answered_completes (t := counted) rfl nofun)
        have raises : u.missesRaise rs fl = true ↔ k.stopOnTwo = true ∧ (absentRun u.head.absent got).2 = true := by
          simp only [State.missesRaise, hfold, hp, k_of_consts hk, Option.isSome_some, Bool.true_and, Bool.and_eq_true]
          exact Iff.rfl
        have ends := (taken h).trans (answered hs hr)
        rw [counts] at ends
        refine ⟨fun hquiet => reports _ (ends.trans (if_neg ?_)), fun h1 h2 => reports _ (ends.trans (if_pos (raises.2 ⟨h1, h2⟩)))⟩
        rw [raises]
        rcases hquiet with h0 | h0 <;> simp [h0]
  · intro e s k u p hk
    have mark : ∀ t, enterMark u = t → exec (.markSensor e) s = .next (settle t) := fun t ht => ended rfl ht
    refine ⟨fun h => mark _ (if_pos h), fun h => mark _ ((if_neg (Nat.not_le.2 h)).trans ?_)⟩
    have tally : ∀ (q : Prop) [Decidable q] (x : Nat), (if q then x + 1 else x) = x + if q then 1 else 0 := by
      intro q _ x
      split <;> rfl
    rw [k_of_consts hk, tally]
  · intro fl s hf w first
    obtain ⟨plain, trial⟩ := completeUnit_flat (s := s) hf
    refine ⟨plain, fun step ht => (trial step ht).trans ?_⟩
    have decides : (fl.results.getD []).headD .absent = first := by
      rcases hr : fl.results with _ | _ | _ <;> simp only [first, hr] <;> rfl
    rw [decides]
  · intro n c cs
    refine ⟨rfl, (absentRun_cons n c cs).1, fun h => ?_⟩
    have more := fun n => (absentRun_cons n c cs).2 h
    rw [more 0, more 1, more 2]
    simp

end Sys2Proof.Machine


/-! ### What leaves the cells of the chest (O36) -/

namespace Sys2Proof.Machine

/-- The cells of the chest and the lower bound of the next. -/
def State.cells (s : State) : List Cell × Nat := (s.chest.cells, s.chest.entry)

theorem PostsOnly.chest {s t : State} (h : PostsOnly s t) : t.chest = s.chest := by
  obtain ⟨mem, port, rfl | rfl⟩ := h <;> rfl

theorem PostsOnly.cells {s t : State} (h : PostsOnly s t) : t.cells = s.cells := by rw [State.cells, State.cells, h.chest]

theorem lineTo_cells (st : LineState) (s : State) : (lineTo st s).cells = s.cells := by
  rw [State.cells, lineTo_chest]
  rfl

theorem testRun_cells (s : State) : (testRun s).cells = s.cells := by
  unfold testRun
  split
  · exact (concludeWatch_postsOnly _ _ _).cells.trans (lineTo_cells .run s)
  · rfl

theorem raiseReason_cells (r : HoldReason) (s : State) : (raiseReason r s).cells = s.cells := by
  unfold raiseReason
  simp only
  split
  · exact lineTo_cells _ _
  · exact lineTo_cells _ _
  all_goals rfl

theorem clearReason_cells (r : HoldReason) (s : State) : (clearReason r s).cells = s.cells := by
  unfold clearReason
  split
  · simp only
    split
    · exact (testRun_cells _).trans (lineTo_cells _ _)
    · rfl
  · rfl

theorem publish_cells (s : State) : (publish s).cells = s.cells := by
  refine (testRun_cells _).trans ?_
  unfold heatTest
  split
  · exact raiseReason_cells _ _
  · split
    · exact clearReason_cells _ _
    · rfl

theorem reportPlaces_cells (s : State) : (reportPlaces s).cells = s.cells := by
  unfold reportPlaces
  simp only
  split
  · exact clearReason_cells _ _
  · rfl

theorem reportCandidate_cells (s : State) : (reportCandidate s).cells = s.cells := by
  unfold reportCandidate
  split
  · exact clearReason_cells _ _
  · rfl

theorem dropRef_cells (tag : Nat) (s : State) : (dropRef tag s).cells = s.cells := by
  unfold dropRef endRollRetirement
  split
  · split
    · exact (concludeWatch_postsOnly _ _ _).cells
    · rfl
  · rfl

theorem completeOrder_cells (tag : Nat) (s : State) : (completeOrder tag s).cells = s.cells := by
  have removed : ∀ o, (removeOrder o s).cells = s.cells := by
    intro o
    obtain ⟨stays, freed⟩ := removeOrder_cases o s
    by_cases h : (s.slot o.pattern).state = .retiring ∧ (s.slot o.pattern).uses ≤ 1
    · rw [freed h.1 h.2]
      exact (concludeWatch_postsOnly _ _ _).cells
    · rw [stays h]
      rfl
  unfold completeOrder
  split
  · split
    · exact (concludeWatch_postsOnly _ _ _).cells.trans (removed _)
    · rfl
  · rfl

theorem orderExit_cells (tag : Nat) (v : Verdict) (r : Reasons) (s : State) : (orderExit tag v r s).cells = s.cells := by
  unfold orderExit
  split
  · rfl
  · simp only
    split
    · split
      · exact reportCandidate_cells _
      · rfl
    · exact completeOrder_cells _ _

theorem deliver_cells (no id : Nat) (s : State) : (deliver no id s).1.cells = s.cells := by
  unfold deliver
  split
  · split
    · simp only
      split
      · exact (clearReason_cells _ _).trans (conclude_postsOnly _ _ _).cells
      · exact (conclude_postsOnly _ _ _).cells
    · rfl
  · rfl

theorem offerTo_cells (l : List Nat) (id : Nat) (s : State) : (offerTo l id s).cells = s.cells := by
  induction l generalizing s with
  | nil => rfl
  | cons no rest ih =>
    have offered : ∀ awaits, (deliver no id { s with web.awaits := awaits }).1.cells = s.cells := fun _ => deliver_cells no id _
    unfold offerTo
    simp only
    split
    · exact offered _
    · exact (ih _).trans (offered _)

/-- R96, R98: the exit of a panel whose segment leaves reaches no cell. -/
theorem removedSeg_cells (reasons : State → Panel → Reasons) (s : State) (g : Segment) :
    (removedSeg reasons s g).cells = s.cells := by
  refine (dropRef_cells _ _).trans ?_
  unfold exitSeg
  split
  · split
    · exact (offerTo_cells _ _ _).trans (orderExit_cells _ _ _ _)
    · rfl
  · rfl

theorem removeBelow_cells (bound : Nat) (s : State) : (removeBelow bound s).cells = s.cells := by
  have removed : ∀ (gone : List Segment) (t : State), (gone.foldl (removedSeg State.reasonsOf) t).cells = t.cells := by
    intro gone
    induction gone with
    | nil => exact fun _ => rfl
    | cons g gone ih => exact fun t => (ih _).trans (removedSeg_cells _ t g)
  unfold removeBelow
  simp only
  split
  · exact removed _ _
  · exact (reportPlaces_cells _).trans (removed _ _)

theorem creditPanel_cells (occupant dose peak : Nat) (s : State) : (creditPanel occupant dose peak s).cells = s.cells := by
  unfold creditPanel
  split
  · split <;> rfl
  · rfl

/-- R95, R96, R120: what a cell brings about as it leaves, by what it holds. -/
theorem cellExit_cases (s : State) :
    cellExit ⟨none, none⟩ s = s ∧ (∀ b, cellExit ⟨some b, none⟩ s = removeBelow (b + 500) s) ∧
    (∀ b f, (f.first = f.second → cellExit ⟨some b, some f⟩ s = removeBelow (b + 500) (creditPanel f.first f.dose f.peak s)) ∧
      (f.first ≠ f.second → cellExit ⟨some b, some f⟩ s = removeBelow (b + 500)
        (creditPanel f.second f.dose f.peak (creditPanel f.first f.dose f.peak s)))) := by
  refine ⟨rfl, fun b => rfl, fun b f => ⟨fun h => ?_, fun h => ?_⟩⟩
  · simp only [cellExit, if_pos h.symm]
  · simp only [cellExit, if_neg (Ne.symm h)]

/-- R95, R96: a cell that leaves changes no other. -/
theorem cellExit_cells (c : Cell) (s : State) : (cellExit c s).cells = s.cells := by
  have credited : ∀ f : CellFill, (if f.second = f.first then creditPanel f.first f.dose f.peak s
      else creditPanel f.second f.dose f.peak (creditPanel f.first f.dose f.peak s)).cells = s.cells := by
    intro f
    split
    · exact creditPanel_cells _ _ _ _
    · exact (creditPanel_cells _ _ _ _).trans (creditPanel_cells _ _ _ _)
  obtain ⟨_ | b, _ | f⟩ := c
  · rfl
  · exact credited f
  · exact removeBelow_cells _ _
  · exact (removeBelow_cells _ _).trans (credited f)

/-! ### Crossings (O36) -/

theorem crossings_eq_iterate (n : Nat) (s : State) : crossings n s = Nat.iterate crossing n s := by
  induction n generalizing s with
  | zero => rfl
  | succ n ih => exact ih _

/-- R117: a crossing for every cell boundary that O has reached. -/
theorem crossingsDue_eq {s : State} {n : Nat} (h : s.head.o < s.k.dEntry + s.chest.entry + 500 * n)
    (hn : n = 0 ∨ s.k.dEntry + s.chest.entry + 500 * (n - 1) ≤ s.head.o) : s.crossingsDue = n := by
  rw [State.crossingsDue]
  split <;> omega

/-- R118: what the two lookups of a new cell find. -/
theorem cellFill_cases (s : State) (b : Nat) :
    (∀ g h, s.segAt b = some g → s.segAt (b + 499) = some h →
      s.cellFill b = some ⟨g.number, h.number, s.segClass g, 0, 0⟩) ∧
    (∀ h, s.segAt b = none → s.segAt (b + 499) = some h → s.cellFill b = some ⟨h.number, h.number, s.segClass h, 0, 0⟩) ∧
    (s.segAt b = none → s.segAt (b + 499) = none → s.cellFill b = none) := by
  refine ⟨fun g h hg hh => ?_, fun h hg hh => ?_, fun hg hh => ?_⟩ <;> rw [State.cellFill, hg, hh]

/-- R91: the lookup finds the first segment that holds the position. -/
theorem segAt_cases (s : State) (x : Nat) :
    let lies := fun (g : Segment) => g.oStart ≤ x ∧ ∀ e, g.oEnd = some e → x < e
    (∀ older g newer, s.web.segs = older ++ g :: newer → lies g → (∀ h ∈ older, ¬ lies h) → s.segAt x = some g) ∧
    ((∀ g ∈ s.web.segs, ¬ lies g) → s.segAt x = none) := by
  intro lies
  have holds_iff : ∀ g : Segment, g.holds x = true ↔ lies g := by
    intro g
    rw [Segment.holds, Bool.and_eq_true, decide_eq_true_iff]
    refine and_congr_right (fun _ => ?_)
    cases g.oEnd <;> simp
  refine ⟨fun older g newer hs hg ho => ?_, fun h => ?_⟩
  · rw [State.segAt, hs, List.find?_append, List.find?_eq_none.2 (fun y hy => mt (holds_iff y).1 (ho y hy)), Option.none_or]
    exact List.find?_cons_of_pos ((holds_iff g).2 hg)
  · exact List.find?_eq_none.2 (fun y hy => mt (holds_iff y).1 (h y hy))

/-- Settles O36: the crossings of a report counted, one crossing by what the leaving cell brings about, and the lookups by the list. -/
theorem crossingsFillTheCells : Obligations.CrossingsFillTheCells := by
  refine ⟨?_, ?_, ?_, segAt_cases⟩
  · intro len n s o next h hn
    rw [reportOutput, crossings_eq_iterate, crossingsDue_eq (s := { s with head.o := s.head.o + len }) h hn]
  · intro s front c hs b u cls t
    have last : s.lastCell = c := by rw [State.lastCell, hs, List.getLast?_concat]; rfl
    have kept : u.cells = (front ++ [⟨none, none⟩], b) := cellExit_cells c _
    obtain ⟨cells, entry⟩ := Prod.mk.inj kept
    have shifted : shiftCells u = { u with chest.cells := ⟨some b, u.cellFill b⟩ :: front, chest.entry := b + 500 } := by
      rw [shiftCells, cells, entry, List.dropLast_concat]
    have crossed : t = if (shiftCells u).classesPresent = s.classesPresent then shiftCells u else publish (shiftCells u) := by
      simp only [t, crossing, last, hs, List.dropLast_concat]
      rfl
    rw [shifted] at crossed
    obtain ⟨two, second, neither⟩ := cellFill_cases u b
    have moved : t.cells = (⟨some b, u.cellFill b⟩ :: front, b + 500) := by
      rw [crossed]
      split
      · rfl
      · exact publish_cells _
    obtain ⟨newCells, newEntry⟩ := Prod.mk.inj moved
    exact ⟨⟨u.cellFill b, newCells, two, second, neither, fun h => crossed.trans (if_pos h),
      fun h => crossed.trans (if_neg h)⟩, newEntry⟩
  · intro c s
    obtain ⟨blank, empty, filled⟩ := cellExit_cases s
    exact ⟨fun h => h ▸ blank, fun b h => h ▸ empty b, fun b f h => h ▸ filled b f⟩

end Sys2Proof.Machine


/-! ### What a completion and the closing of a segment leave of the head (O28, O55) -/

namespace Sys2Proof.Machine

/-- The line's state, the panel records, the segment numbers and the head stay, but for what a call on the head and a report of places set;
the orders and the trials stay too, unless a ring fault drops the held requests (R172, R175). -/
structure Quiet (s t : State) : Prop where
  line : t.line.state = s.line.state
  panels : t.web.panels = s.web.panels
  nextSeg : t.web.nextSeg = s.web.nextSeg
  head : { t.head with align := s.head.align, again := s.head.again, mapNeed := s.head.mapNeed } = s.head
  held : t.port.state = s.port.state ∧ t.orders = s.orders ∧ t.head.align = s.head.align ∨
    s.port.state = .ready ∧ t.port.state = .initFailed ∧ t.orders = s.orders.map (fun o => { o with watch := none }) ∧
      t.head.align = s.head.align.map (fun a => { a with entry := none })

namespace Quiet

variable {s t u : State}

theorem refl (s : State) : Quiet s s := ⟨rfl, rfl, rfl, rfl, .inl ⟨rfl, rfl, rfl⟩⟩

theorem trans (a : Quiet s t) (b : Quiet t u) : Quiet s u := by
  refine ⟨b.line.trans a.line, b.panels.trans a.panels, b.nextSeg.trans a.nextSeg, ?_, ?_⟩
  · calc _ = { { u.head with align := t.head.align, again := t.head.again, mapNeed := t.head.mapNeed } with
            align := s.head.align, again := s.head.again, mapNeed := s.head.mapNeed } := rfl
      _ = s.head := by rw [b.head, a.head]
  · rcases a.held with ⟨p, o, h⟩ | ⟨r, p, o, h⟩ <;> rcases b.held with ⟨p', o', h'⟩ | ⟨r', p', o', h'⟩
    · exact .inl ⟨p'.trans p, o'.trans o, h'.trans h⟩
    · exact .inr ⟨p ▸ r', p', by rw [o', o], by rw [h', h]⟩
    · exact .inr ⟨r, p'.trans p, o'.trans o, h'.trans h⟩
    · rw [p] at r'
      cases r'

/-- A field of the head that neither a call on it nor a report of places nor the trials are held in. -/
theorem kept {α : Type} (h : Quiet s t) (field : Head → α)
    (hf : ∀ (hd : Head) a b c, field { hd with align := a, again := b, mapNeed := c } = field hd) :
    field t.head = field s.head := by rw [← hf t.head, h.head]

/-- R172: whether the held requests were dropped shows in the state of the port. -/
theorem held_of_port (h : Quiet s t) :
    (t.port.state = s.port.state → t.orders = s.orders ∧ t.head.align = s.head.align) ∧
    (t.port.state ≠ s.port.state → t.orders = s.orders.map (fun o => { o with watch := none }) ∧
      t.head.align = s.head.align.map (fun a => { a with entry := none })) := by
  rcases h.held with ⟨p, held⟩ | ⟨r, p, held⟩
  · exact ⟨fun _ => held, fun n => absurd p n⟩
  · refine ⟨fun e => ?_, fun _ => held⟩
    rw [p, r] at e
    cases e

end Quiet

section Posts

variable {s : State}

theorem ringFault_quiet (h : s.port.state = .ready) (ret : Bool) (slot : Nat) : Quiet s (ringFault ret slot s) :=
  ⟨rfl, rfl, rfl, rfl, .inr ⟨h, rfl, rfl, rfl⟩⟩

theorem readReturn_quiet (s : State) : Quiet s (readReturn s) := by
  rcases readReturn_cases s with e | ⟨h, i, e⟩ <;> rw [e]
  · exact .refl s
  · exact ringFault_quiet h true i

theorem posted_quiet (it : PostItem) (r : Ring) (s : State) : Quiet s (posted it r s) := by
  rw [posted]
  cases it.last <;> exact ⟨rfl, rfl, rfl, rfl, .inl ⟨rfl, rfl, rfl⟩⟩

theorem store_quiet (ps : List (Nat × Byte)) (s : State) : Quiet s (s.store ps) := ⟨rfl, rfl, rfl, rfl, .inl ⟨rfl, rfl, rfl⟩⟩

theorem setPosting_quiet (l : List PostItem) (s : State) : Quiet s { s with port.posting := l } :=
  ⟨rfl, rfl, rfl, rfl, .inl ⟨rfl, rfl, rfl⟩⟩

theorem postItems_quiet (l : List PostItem) (s : State) : Quiet s (postItems l s) := by
  induction l generalizing s with
  | nil => exact (setPosting_quiet [] s).trans (readReturn_quiet _)
  | cons it rest ih =>
    unfold postItems
    split
    next r hs _ =>
      simp only
      split
      · split
        · split
          · exact ((store_quiet _ s).trans (posted_quiet it r _)).trans (ih _)
          · have stored := store_quiet (slotBytes (r.addr + 8 * r.pos) it) s
            exact stored.trans (ringFault_quiet (s := s.store _) hs true r.pos)
        · exact setPosting_quiet _ s
      · exact ringFault_quiet hs _ _
    next => exact .refl s

theorem conclude_quiet (no : Nat) (a : Answer) (s : State) : Quiet s (conclude no a s) := by
  have queued : ∀ items t, Quiet t (enqueue no items t) := by
    intro items t
    unfold enqueue
    split
    · refine .trans ?_ (postItems_quiet _ _)
      exact ⟨rfl, rfl, rfl, rfl, .inl ⟨rfl, rfl, rfl⟩⟩
    · exact .refl t
  unfold conclude
  split
  · exact .refl s
  · split
    · exact .refl s
    next q _ _ =>
      obtain ⟨mem, e⟩ := writeAnswer_mem q a s
      have written : Quiet s (writeAnswer q a s) := by
        rw [e]
        exact ⟨rfl, rfl, rfl, rfl, .inl ⟨rfl, rfl, rfl⟩⟩
      exact written.trans (queued _ _)

theorem concludeWatch_quiet (w : Option Nat) (a : Answer) (s : State) : Quiet s (concludeWatch w a s) := by
  cases w with
  | none => exact .refl s
  | some no => exact conclude_quiet no a s

theorem dropRef_quiet (tag : Nat) (s : State) : Quiet s (dropRef tag s) := by
  have mapped : Quiet s (s.mapRoll tag (fun r => { r with refs := r.refs - 1 })) := ⟨rfl, rfl, rfl, rfl, .inl ⟨rfl, rfl, rfl⟩⟩
  have removed : ∀ t : State, Quiet t (removeRoll tag t) := fun t => ⟨rfl, rfl, rfl, rfl, .inl ⟨rfl, rfl, rfl⟩⟩
  refine mapped.trans ?_
  unfold dropRef endRollRetirement
  split
  · split
    · exact (removed _).trans (concludeWatch_quiet _ _ _)
    · exact .refl _
  · exact .refl _

/-- R106, R131: outside HOLD the places reported clear MAP_FULL and go no further. -/
theorem reportPlaces_quiet (h : s.line.state ≠ .hold) : Quiet s (reportPlaces s) := by
  have cleared : ∀ t : State, t.line.state ≠ .hold → Quiet t (clearReason .mapFull t) := by
    intro t ht
    unfold clearReason
    split
    · rw [if_neg (fun e => ht e.1)]
      exact ⟨rfl, rfl, rfl, rfl, .inl ⟨rfl, rfl, rfl⟩⟩
    · exact .refl t
  have called : ∀ need, Quiet s { headAgain s with head.mapNeed := need } :=
    fun need => ⟨rfl, rfl, rfl, rfl, .inl ⟨rfl, rfl, rfl⟩⟩
  unfold reportPlaces
  split
  · exact (called 0).trans (cleared _ h)
  · exact called s.head.mapNeed

/-- R90: outside HOLD the closing of the newest segment leaves the head, the panels and the line's state. -/
theorem closeNewest_quiet (h : s.line.state ≠ .hold) : Quiet s (closeNewest s) := by
  have segs : ∀ l : List Segment, Quiet s { s with web.segs := l } := fun l => ⟨rfl, rfl, rfl, rfl, .inl ⟨rfl, rfl, rfl⟩⟩
  unfold closeNewest
  split
  · exact .refl s
  · split
    · exact .refl s
    · simp only
      split
      next g _ _ _ =>
        have dropped := (segs s.web.segs.dropLast).trans (dropRef_quiet g.roll _)
        exact dropped.trans (reportPlaces_quiet (dropped.line ▸ h))
      · exact segs _

/-- R42, R90: a roll's count raised and the newest segment closed, as a segment is appended. -/
theorem closeNewest_addRef_quiet (h : s.line.state ≠ .hold) (roll : Nat) : Quiet s (closeNewest (addRef roll s)) := by
  have added : Quiet s (addRef roll s) := ⟨rfl, rfl, rfl, rfl, .inl ⟨rfl, rfl, rfl⟩⟩
  exact added.trans (closeNewest_quiet h)

/-- R89: outside HOLD the segment appended has the next number and starts at F. -/
theorem appendSeg_newest (h : s.line.state ≠ .hold) (kind : SegKind) (roll : Nat) (panel : Option Nat) :
    ∃ o, (appendSeg kind roll panel s).web.segs.getLast? =
      some ⟨s.web.nextSeg, kind, roll, panel, s.head.f, none, o, none⟩ := by
  have q := closeNewest_addRef_quiet h roll
  have f : (closeNewest (addRef roll s)).head.f = s.head.f := q.kept Head.f fun _ _ _ _ => rfl
  refine ⟨(closeNewest (addRef roll s)).nextStart, List.getLast?_concat.trans ?_⟩
  rw [f, q.nextSeg]

end Posts

end Sys2Proof.Machine


/-! ### The start of a panel (O55) -/

namespace Sys2Proof.Machine

/-! #### The start tests (R70, R71) -/

/-- R71: what the horizon test compares for a panel of takeup `t`. -/
def State.panelFits (s : State) (k : Consts) (t : Nat) : Prop :=
  match s.head.arrival with
  | some a => s.head.f + t + k.guardLen ≤ a.pos
  | none => t + k.guardLen + k.rs ≤ k.p + s.line.store + ((s.runningRoll.map (fun r => r.declared - r.u)).getD 0)

/-- R77: the state whose expected start is set at the first boundary that makes the fourth test (log entry 19). -/
def State.expecting (s : State) : State :=
  if s.head.counting = true then s else { s with head.expected := some (s.head.expected.getD s.head.f) }

section StartTests

variable {s : State} {b : Bound} {p : Page} {roll : Nat}

theorem horizon_iff {k : Consts} (hk : s.line.consts = some k) (t : Nat) : s.horizon t = true ↔ s.panelFits k t := by
  rw [State.horizon, State.panelFits, k_of_consts hk]
  cases s.head.arrival <;> exact decide_eq_true_iff

theorem bladeK_eq (hb : s.bladeRoll = some roll) : s.bladeK = s.allowance (((s.findRoll roll).map Roll.cls).getD 0) := by
  rw [State.bladeK, hb]

theorem startOrSeek_free (hm : b.marks = none) : startOrSeek b p roll s = wantFold (startPanel b p roll false s) := by
  rw [startOrSeek, hm]

theorem startOrSeek_start {r : Marks} {self : Bool} (hm : b.marks = some r) (hf : s.expecting.framing r = .start self) :
    startOrSeek b p roll s = wantFold (registered r (startPanel b p roll self s.expecting)) := by
  unfold startOrSeek
  unfold State.expecting at *
  rw [hm]
  dsimp only
  rw [hf]

theorem startOrSeek_seek {r : Marks} {point : Option Nat} (hm : b.marks = some r) (hf : s.expecting.framing r = .seek point) :
    startOrSeek b p roll s = wantChunk (s.expecting.runOf .seek) point s.expecting := by
  unfold startOrSeek
  unfold State.expecting at *
  rw [hm]
  dsimp only
  rw [hf]

/-- R70: the first two start tests refuse before anything is reported. -/
theorem startTests_full (hb : s.bladeRoll = some roll) (hp : s.boundPage = some p) :
    (64 ≤ s.web.panels.length → startTests b s = raiseReason .panelsFull s) ∧
    (s.web.panels.length < 64 → 126 < s.web.segs.length →
      startTests b s = raiseReason .mapFull { s with head.mapNeed := 2 }) := by
  rw [startTests, hb, hp]
  refine ⟨fun full => if_pos full, fun room segs => ?_⟩
  have few : s.freePlaces < 2 := by
    have limit : Config.segLimit = 128 := rfl
    rw [State.freePlaces]
    omega
  exact (if_neg (Nat.not_le.2 room)).trans (if_pos few)

/-- R70: with a record and two places free the horizon decides, reported before the line's state is looked at. -/
theorem startTests_room (hb : s.bladeRoll = some roll) (hp : s.boundPage = some p) (panels : s.web.panels.length < 64)
    (segs : s.web.segs.length ≤ 126) :
    startTests b s =
      let fits := s.horizon (p.measure b.size s.bladeK).t
      let t := setHeadWish (!fits) s
      if t.line.state ≠ .run then t else if fits then startOrSeek b p roll t else wantChunk (t.runOf .wait) none t := by
  have two : ¬ s.freePlaces < 2 := by
    have limit : Config.segLimit = 128 := rfl
    rw [State.freePlaces]
    omega
  rw [startTests, hb, hp]
  exact (if_neg (Nat.not_le.2 panels)).trans (if_neg two)

/-- R71: a panel that fits clears the head's wish, and in RUN goes on to the fourth test. -/
theorem startTests_fits (hb : s.bladeRoll = some roll) (hp : s.boundPage = some p) (panels : s.web.panels.length < 64)
    (segs : s.web.segs.length ≤ 126) (fits : s.horizon (p.measure b.size s.bladeK).t = true) :
    startTests b s =
      if (setHeadWish false s).line.state ≠ .run then setHeadWish false s else startOrSeek b p roll (setHeadWish false s) := by
  rw [startTests_room hb hp panels segs, fits]
  rfl

/-- R71: a panel that does not fit sets the head's wish, and in RUN a WAIT chunk is drawn. -/
theorem startTests_waits (hb : s.bladeRoll = some roll) (hp : s.boundPage = some p) (panels : s.web.panels.length < 64)
    (segs : s.web.segs.length ≤ 126) (short : ¬ s.horizon (p.measure b.size s.bladeK).t = true) :
    startTests b s =
      if (setHeadWish true s).line.state ≠ .run then setHeadWish true s
      else wantChunk ((setHeadWish true s).runOf .wait) none (setHeadWish true s) := by
  rw [startTests_room hb hp panels segs, Bool.eq_false_iff.2 short]
  rfl

end StartTests

/-! #### The framing of a MARKED start (R77, R78) -/

/-- R77, R78: the mark at an index of the list is usable: not behind the blade with its offset and, while COUNTING, the N-th or later. -/
def State.usableAt (s : State) (r : Marks) (i p : Nat) : Prop :=
  s.head.marks[i]? = some p ∧ s.head.f ≤ p + r.offset ∧
    (s.head.counting = true → (r.mult : Int) + ((s.head.marks.length : Int) - 1 - i) ≤ s.head.counted)

/-- The test of the usable mark, as the model's search makes it. -/
def State.markTest (s : State) (r : Marks) (m : Nat × Nat) : Bool :=
  decide (s.head.f ≤ m.1 + r.offset) && (!s.head.counting || s.countedMark r.mult m.2)

section Framing

variable {s : State} {r : Marks} {p : Nat}

theorem usableMark_eq (s : State) (r : Marks) :
    s.usableMark r = (s.head.marks.zipIdx.find? (s.markTest r)).map Prod.fst := rfl

theorem usableAt_iff (i : Nat) : s.usableAt r i p ↔ s.head.marks[i]? = some p ∧ s.markTest r (p, i) = true := by
  have counted : (!s.head.counting || s.countedMark r.mult i) = true ↔
      (s.head.counting = true → (r.mult : Int) + ((s.head.marks.length : Int) - 1 - i) ≤ s.head.counted) := by
    rw [State.countedMark]
    cases s.head.counting
    · simp
    · simp only [Bool.not_true, Bool.false_or, decide_eq_true_iff, forall_const]
      omega
  rw [State.usableAt, State.markTest, Bool.and_eq_true, decide_eq_true_iff, counted]

/-- The usable mark is the first of the list that is usable. -/
theorem usableMark_of_first (h : ∃ i, s.usableAt r i p ∧ ∀ j q, j < i → ¬ s.usableAt r j q) : s.usableMark r = some p := by
  obtain ⟨i, here, earlier⟩ := h
  obtain ⟨at_i, passes⟩ := (usableAt_iff i).1 here
  obtain ⟨inside, value⟩ := List.getElem?_eq_some_iff.1 at_i
  have found : s.head.marks.zipIdx.find? (s.markTest r) = some (p, i) := by
    refine List.find?_eq_some_iff_getElem.2 ⟨passes, i, by simpa using inside, by simp [value], fun j hj => ?_⟩
    have inner : j < s.head.marks.length := hj.trans inside
    have fails : ¬ s.markTest r (s.head.marks[j], j) = true := fun test =>
      earlier j _ hj ((usableAt_iff j).2 ⟨List.getElem?_eq_getElem inner, test⟩)
    simpa using fails
  rw [usableMark_eq, found]
  rfl

theorem usableMark_of_no_mark (h : ∀ i q, ¬ s.usableAt r i q) : s.usableMark r = none := by
  have none : s.head.marks.zipIdx.find? (s.markTest r) = none :=
    List.find?_eq_none.2 fun m hm test => h m.2 m.1 ((usableAt_iff m.2).2 ⟨List.mem_zipIdx_iff_getElem?.1 hm, test⟩)
  rw [usableMark_eq, none]
  rfl

/-- R77: with a usable mark the head starts at its start position, or seeks it or the deadline, whichever is the nearer ahead. -/
theorem framing_of_mark (h : s.usableMark r = some p) :
    (p + r.offset = s.head.f → s.framing r = .start false) ∧
    (p + r.offset ≠ s.head.f → (s.head.f : Int) < s.frameDeadline r →
      s.framing r = .seek (some (min (p + r.offset) (s.frameDeadline r).toNat))) ∧
    (p + r.offset ≠ s.head.f → s.frameDeadline r ≤ (s.head.f : Int) → s.framing r = .seek (some (p + r.offset))) := by
  rw [State.framing, h]
  refine ⟨fun here => if_pos here, fun off ahead => ?_, fun off behind => ?_⟩
  · exact (if_neg off).trans (by rw [if_pos ahead])
  · exact (if_neg off).trans (by rw [if_neg (not_lt.2 behind)])

/-- R78: with none it starts self-framed from the deadline on, and seeks the deadline before. -/
theorem framing_of_no_mark (h : s.usableMark r = none) :
    (s.frameDeadline r ≤ (s.head.f : Int) → s.framing r = .start true) ∧
    ((s.head.f : Int) < s.frameDeadline r → s.framing r = .seek (some (s.frameDeadline r).toNat)) := by
  rw [State.framing, h]
  exact ⟨fun reached => if_pos reached, fun ahead => if_neg (not_le.2 ahead)⟩

end Framing

/-! #### The panel (R72, R93) -/

section Start

variable (b : Bound) (p : Page) (roll : Nat) (self : Bool) (s : State)

/-- R72: the state of a start before its segment is opened. -/
def State.framed : State :=
  judgeHead { s with
    web.panels := s.web.panels ++ [s.startRecord b p (p.meter b.letter b.size s.bladeK) roll self]
    web.nextPanel := s.idAfter s.web.nextPanel
    head.meter := some (p.meter b.letter b.size s.bladeK)
    head.committed := s.head.f + (p.meter b.letter b.size s.bladeK).takeup
    head.panel := some s.web.nextPanel, head.cursor := p.firstCursor, head.absent := 0, head.run := none }

/-- R72, R90: the state of a start with the newest segment closed. -/
def State.framedClosed : State := closeNewest (addRef roll (s.framed b p roll self))

theorem framedClosed_quiet (h : s.line.state ≠ .hold) : Quiet (s.framed b p roll self) (s.framedClosed b p roll self) :=
  closeNewest_addRef_quiet (s := s.framed b p roll self) h roll

/-- R72: what of a start's state the trigger test leaves, over the state with the newest segment closed. -/
theorem startPanel_eq :
    let u := s.framedClosed b p roll self
    let t := startPanel b p roll self s
    t.head = u.head ∧ t.web.panels = u.web.panels ∧
    t.web.segs = (appendSeg .panel roll (some s.web.nextPanel) (s.framed b p roll self)).web.segs ∧
    t.orders = u.orders.map (fun o => if o.tag == b.tag then { o with live := o.live + 1 } else o) ∧
    t.port = u.port := by
  have frame := triggerTest_frame ((appendSeg .panel roll (some s.web.nextPanel) (s.framed b p roll self)).mapOrder b.tag
    (fun o => { o with live := o.live + 1 }))
  have web := (congrArg State.web frame :)
  exact ⟨(congrArg State.head frame :), (congrArg Web.panels web :), (congrArg Web.segs web :),
    (congrArg State.orders frame :), (congrArg State.port frame :)⟩

/-- R93, R172: the live count of the panel's order rises, on orders whose notify watches may be gone. -/
theorem liveOrders_eq (l : List Order) (y : Order → Order) (hy : ∀ o, (y o).tag = o.tag) :
    (l.map y).map (fun o => if o.tag == b.tag then { o with live := o.live + 1 } else o) =
      l.map (fun o => if o.tag = b.tag then { y o with live := (y o).live + 1 } else y o) := by
  rw [List.map_map]
  refine List.map_congr_left fun o _ => ?_
  simp only [Function.comp_apply, beq_iff_eq, hy]

end Start

/-- Settles O55: the start tests as `startTests_full`, `startTests_fits` and `startTests_waits` give them, the start over the state with its
newest segment closed, and the framing by the first usable mark. -/
theorem panelStartsWhenItsTestsPass : Obligations.PanelStartsWhenItsTestsPass := by
  refine ⟨fun s b p roll k hk hb hp => ?_, fun b p roll self s hrun hb => ?_, fun r s => ?_⟩
  · intro cls t fits reported
    obtain ⟨noRecord, noPlace⟩ := startTests_full (b := b) hb hp
    refine ⟨noRecord, noPlace, fun panels segs => ?_⟩
    have horizon : s.horizon (p.measure b.size s.bladeK).t = true ↔ fits := by
      rw [bladeK_eq hb]
      exact horizon_iff hk t
    have waits : ¬ fits → _ := fun h => startTests_waits (b := b) hb hp panels segs (mt horizon.1 h)
    have starts : fits → _ := fun h => startTests_fits (b := b) hb hp panels segs (horizon.2 h)
    refine ⟨fun h out => (waits h).trans (if_pos out), fun h run => (waits h).trans (if_neg (not_not.2 run)),
      fun h out => (starts h).trans (if_pos out), fun h run hm => ?_, fun r h run hm => ⟨fun self hf => ?_, fun point hf => ?_⟩⟩
    · exact ((starts h).trans (if_neg (not_not.2 run))).trans (startOrSeek_free hm)
    · exact ((starts h).trans (if_neg (not_not.2 run))).trans (startOrSeek_start hm hf)
    · exact ((starts h).trans (if_neg (not_not.2 run))).trans (startOrSeek_seek hm hf)
  · intro cls a id t live
    have out : s.line.state ≠ .hold := by rw [hrun]; decide
    have q := framedClosed_quiet b p roll self s out
    obtain ⟨head, panels, segs, orders, port⟩ := startPanel_eq b p roll self s
    obtain ⟨same, dropped⟩ := q.held_of_port
    have kept : ∀ {α : Type} (field : Head → α),
        (∀ (hd : Head) a b c, field { hd with align := a, again := b, mapNeed := c } = field hd) →
        field t.head = field (s.framed b p roll self).head := fun field hf => (congrArg field head).trans (q.kept field hf)
    have meter : p.meter b.letter b.size s.bladeK = a := congrArg _ (bladeK_eq hb)
    refine ⟨?_, kept Head.panel fun _ _ _ _ => rfl, ?_, ?_, kept Head.cursor fun _ _ _ _ => rfl, kept Head.absent fun _ _ _ _ => rfl,
      kept Head.run fun _ _ _ _ => rfl, kept Head.f fun _ _ _ _ => rfl, kept Head.o fun _ _ _ _ => rfl, ?_, ?_, ?_, ?_⟩
    · rw [← meter]
      exact kept Head.committed fun _ _ _ _ => rfl
    · refine (kept Head.state fun _ _ _ _ => rfl).trans ?_
      change headStateOf s.line.state true _ = _
      rw [hrun]
      rfl
    · rw [← meter]
      exact kept Head.meter fun _ _ _ _ => rfl
    · rw [← meter]
      exact panels.trans q.panels
    · rw [segs]
      exact appendSeg_newest (s := s.framed b p roll self) out .panel roll (some s.web.nextPanel)
    · intro stays
      rw [orders, (same (port ▸ stays)).1]
      exact (congrArg (List.map _) (List.map_id' s.orders).symm).trans (liveOrders_eq b s.orders (fun o => o) fun _ => rfl)
    · intro faults
      rw [orders, (dropped (port ▸ faults)).1]
      exact liveOrders_eq b s.orders _ fun _ => rfl
  · intro f e due usable first
    have marked : ∀ p, first p → s.usableMark r = some p := fun p h => usableMark_of_first h
    refine ⟨fun p h => (framing_of_mark (marked p h)).1, fun p h => (framing_of_mark (marked p h)).2.1,
      fun p h => (framing_of_mark (marked p h)).2.2, fun none => framing_of_no_mark (usableMark_of_no_mark none), rfl⟩

end Sys2Proof.Machine


/-! ### Align Blade and its trials (O28) -/

namespace Sys2Proof.Machine

/-! #### The request held (R85) -/

/-- The entry of a request that reaches its owner is in the table. -/
theorem holdsEntry_of_dispatches {e : Env} {q : Req} {c : Call} {s : State} {x : Entry} (h : dispatches e q c s x = true) :
    (dispatched e q c s x).holdsEntry x.no = true := by
  simp only [dispatches, Bool.and_eq_true, beq_iff_eq] at h
  obtain ⟨⟨⟨taken, _⟩, _⟩, _⟩ := h
  rw [dispatched, setReq_holdsEntry]
  exact holdsEntry_of_taken taken

/-- R168: an entry of the table is at the stage it was moved to. -/
theorem setStage_stage {no : Nat} {s : State} (st : Stage) (h : s.holdsEntry no = true) :
    ((setStage no st s).entry no).map Entry.stage = some st := by
  obtain ⟨x, hx⟩ := Option.isSome_iff_exists.1 h
  have same : ((fun y : Entry => y.no == no) ∘ fun y => if (y.no == no) = true then { y with stage := st } else y) =
      fun y => y.no == no := by
    funext y
    simp only [Function.comp_apply]
    split <;> rfl
  have number : (x.no == no) = true := List.find?_some (p := fun y : Entry => y.no == no) hx
  have found : (setStage no st s).entry no = some { x with stage := st } := by
    simp only [State.entry, setStage, State.mapEntry, List.find?_map]
    rw [same]
    exact (congrArg (Option.map _) hx).trans (congrArg some (if_pos number))
  rw [found]
  rfl

section Begins

variable {s : State} {no roll : Nat}

/-- R85: the state in which the alignment runs under the held request, before the trials begin. -/
def State.aligning (s : State) (no : Nat) : State :=
  holdRunning no { s with head.aligned := false, head.align := some ⟨some no, 0, 0, none⟩, head.state := .aligning }

theorem decideAlign_no_roll (hb : s.bladeRoll = none) : decideAlign no s = conclude no s.wrongLine s := by
  rw [decideAlign, hb]

theorem decideAlign_refused (hb : s.bladeRoll = some roll) (h : s.line.state ≠ .thread ∨ s.head.align ≠ none) :
    decideAlign no s = conclude no s.wrongLine s := by
  rw [decideAlign, hb]
  exact if_pos (h.imp id Option.isSome_iff_ne_none.2)

theorem decideAlign_allowed (hb : s.bladeRoll = some roll) (hl : s.line.state = .thread) (ha : s.head.align = none) :
    decideAlign no s = if Config.segLimit ≤ s.web.segs.length then conclude no (refusal .tableFull Sense.none) s
      else headAgain (beginTrials roll (s.aligning no)) := by
  have allowed : ¬ (s.line.state ≠ .thread ∨ s.head.align.isSome = true) := by
    rw [hl, ha]
    decide
  have judged : judgeHead { misalign s with head.align := some ⟨some no, 0, 0, none⟩ } =
      { s with head.aligned := false, head.align := some ⟨some no, 0, 0, none⟩, head.state := .aligning } := by
    rw [judgeHead]
    change ({ s with head.aligned := false, head.align := _, head.state := headStateOf s.line.state _ _ } : State) = _
    rw [hl]
    rfl
  rw [decideAlign, hb]
  refine (if_neg allowed).trans ?_
  rw [judged]
  rfl

/-- R85, R89: with room in the list and no passage in progress the TRIAL segment is appended, for a TRIAL never merges. -/
theorem beginTrials_at_once (hp : s.head.passage = .none) (room : s.web.segs.length < 128) :
    beginTrials roll s = { appendSeg .trial roll none s with head.run := some ⟨.trial, none, true, none⟩ } := by
  have opens : openSeg .trial roll none s = some (appendSeg .trial roll none s) := by
    rw [openSeg, if_neg (show ¬ s.merges .trial roll = true from nofun)]
    exact if_neg (Nat.not_le.2 room)
  unfold beginTrials
  rw [opens]
  exact if_pos hp

theorem beginTrials_behind (hp : s.head.passage ≠ .none) :
    beginTrials roll s = { s with head.suspended := some ⟨.trial, none, false, none⟩ } := if_neg hp

end Begins

/-! #### The trials (R68, R85) -/

/-- R85: a chunk of 200 carries the trial's stroke; one shortened is a plain chunk. -/
theorem trialUnit_eq {s : State} {k : Consts} (hk : s.line.consts = some k) (step len : Nat) :
    s.trialUnit step len =
      if len = 200 then ⟨false, 200, 200, [⟨50 + k.overtravel, true, 200 + step⟩], some step⟩ else ⟨false, len, len, [], none⟩ := by
  rw [State.trialUnit, k_of_consts hk]
  by_cases whole : len = 200
  · subst whole
    rfl
  · rw [if_neg whole]
    exact if_neg whole

theorem wantTrial_cases {s : State} {k : Consts} {r : Run} {a : Align} {roll len : Nat} (hk : s.line.consts = some k)
    (hb : s.bladeRoll = some roll) (hl : s.chunkFor Config.trialLen r none = len) :
    let wants := fun (t : State) => { t with head.wanted := some (if len = 200
      then ⟨false, 200, 200, [⟨50 + k.overtravel, true, 200 + a.step⟩], some a.step⟩ else ⟨false, len, len, [], none⟩) }
    (r.opened = true → wantTrial r a s = wants { s with head.run := some r }) ∧
    (r.opened = false →
      let opened := openSeg r.purpose.segKind (r.roll.getD roll) none { s with head.run := some r }
      (opened = none → wantTrial r a s = raiseReason .mapFull { s with head.run := some r, head.mapNeed := 1 }) ∧
      (∀ t, opened = some t → t.head.f = s.head.f → t.head.arrival = s.head.arrival → t.head.passage = s.head.passage →
        t.line.consts = s.line.consts → wantTrial r a s = wants { t with head.run := some { r with opened := true } })) := by
  subst hl
  have unit : ∀ t, SameChunks s t →
      t.trialUnit a.step (t.chunkFor Config.trialLen r none) = s.trialUnit a.step (s.chunkFor Config.trialLen r none) :=
    fun t h => by rw [h.chunkFor, State.trialUnit, State.trialUnit, h.k]
  intro wants
  obtain ⟨isOpen, shut⟩ := wantFrom_cases hb unit
  rw [trialUnit_eq hk] at isOpen shut
  rw [wantTrial_eq]
  exact ⟨isOpen, fun ho => ⟨(shut ho).1, fun t ht hf ha hp hc => (shut ho).2 t ht ⟨hf, ha, hp, hc⟩⟩⟩

/-- R85: a LATE trial ends the alignment, an EARLY one at 255 too. -/
theorem trialOutcome_cases {s : State} {a : Align} (ha : s.head.align = some a) (step : Nat) (r : Crease) :
    let b := { a with made := a.made + 1, last := some r }
    let t := { s with head.align := some b }
    trialOutcome step r s =
      if r = .late ∧ step ≠ 0 then finishAlign b (doneParams [(0, [b8 step]), (2, le 2 (a.made + 1))])
        { t with head.aligned := true, head.offset := step }
      else if r = .late ∨ step = 255 then
        finishAlign b (refusal .alignRange (senseVals [natVal step, natVal (trialCode (decide (r = .late)))])) t
      else { t with head.align := some { b with step := step + 1 } } := by
  intro b t
  have locks : (decide (r = .late) && step != 0) = true ↔ r = .late ∧ step ≠ 0 := by simp
  have ends : (decide (r = .late) || step == 255) = true ↔ r = .late ∨ step = 255 := by simp
  rw [trialOutcome, ha]
  simp only [locks, ends]
  rfl

/-! #### The end of the trials (R85, R86) -/

/-- R86: a trial still wanted is withdrawn when no passage is in progress. -/
def State.unwanted (s : State) : State := if s.head.wanted ≠ none ∧ s.head.passage = .none then withdraw s else s

/-- R86: in THREAD the head is FLAT with no alignment, and a unit in flight is no trial. -/
def State.trialsOver (s : State) : State :=
  { s with
    head.align := none, head.state := .flat, head.again := true
    head.flight := s.head.flight.map (fun f => { f with unit.trial := none }) }

/-- R86: a newest TRIAL segment is closed. -/
def State.trialShut (s : State) : State := if s.web.segs.getLast?.map Segment.kind = some .trial then closeNewest s else s

section Ends

variable {s : State}

theorem trialShut_quiet (h : s.line.state ≠ .hold) : Quiet s s.trialShut := by
  unfold State.trialShut
  split
  · exact closeNewest_quiet h
  · exact .refl s

/-- R86: what the withdrawal of a trial leaves. -/
theorem unwanted_keeps (s : State) : s.unwanted.line.state = s.line.state ∧ ∃ w, s.unwanted.head = { s.head with wanted := w } := by
  unfold State.unwanted
  split
  · exact ⟨rfl, none, rfl⟩
  · exact ⟨rfl, s.head.wanted, rfl⟩

theorem endAlign_thread (h : s.trialShut.line.state = .thread) :
    endAlign s = placeRun (some ⟨.thread, none, false, none⟩) s.trialShut.unwanted.trialsOver := by
  have shut : (if s.newestSeg.any (fun g => g.kind == .trial) then closeNewest s else s) = s.trialShut := by
    rw [State.trialShut, State.newestSeg]
    refine if_congr ?_ rfl rfl
    rw [Option.any_eq_true, Option.map_eq_some_iff]
    simp only [beq_iff_eq]
  have idle : (if s.trialShut.head.wanted.isSome ∧ s.trialShut.head.passage = .none then withdraw s.trialShut else s.trialShut) =
      s.trialShut.unwanted := by
    rw [State.unwanted]
    simp only [Option.isSome_iff_ne_none]
  have thread : s.trialShut.unwanted.line.state = .thread := (unwanted_keeps _).1.trans h
  have flat : ∀ panel, headStateOf s.trialShut.unwanted.line.state panel false = .flat := fun panel => by
    rw [thread]
    rfl
  unfold endAlign
  simp only [shut, idle]
  refine (if_pos thread).trans ?_
  rw [judgeHead]
  simp only [Option.isSome_none, flat]
  rw [placeRun_eq, placeRun_eq]
  rfl

theorem finishAlign_eq (a : Align) (ans : Answer) (s : State) : finishAlign a ans s = endAlign (concludeWatch a.entry ans s) := by
  unfold finishAlign concludeWatch
  cases a.entry <;> rfl

/-- R85, R86: the end of the trials in THREAD, over the state with the answer posted. -/
theorem finishAlign_thread (a : Align) (ans : Answer) (h : s.line.state = .thread) :
    let told := concludeWatch a.entry ans s
    Quiet s told.trialShut ∧
    finishAlign a ans s = placeRun (some ⟨.thread, none, false, none⟩) told.trialShut.unwanted.trialsOver := by
  intro told
  have posted : Quiet s told := concludeWatch_quiet a.entry ans s
  have thread : told.line.state = .thread := posted.line.trans h
  have closed := trialShut_quiet (s := told) (by rw [thread]; decide)
  exact ⟨posted.trans closed, (finishAlign_eq a ans s).trans (endAlign_thread (closed.line.trans thread))⟩

/-- R86: the head at the end of the trials, over a completion and the closing of their segment. -/
theorem trialsOver_head {t : State} (q : Quiet s t) : ∃ w fl n, t.unwanted.trialsOver.head =
    { s.head with align := none, state := .flat, again := true, wanted := w, flight := fl, mapNeed := n } := by
  obtain ⟨_, w, head⟩ := unwanted_keeps t
  refine ⟨w, t.unwanted.head.flight.map (fun f => { f with unit.trial := none }), t.head.mapNeed, ?_⟩
  rw [State.trialsOver, head, ← q.head]

theorem finishAlign_head (a : Align) (ans : Answer) (h : s.line.state = .thread) : ∃ w fl n, (finishAlign a ans s).head =
    { s.head with
      align := none, state := .flat, again := true, wanted := w, flight := fl, mapNeed := n
      run := if s.head.passage = .none then some ⟨.thread, none, false, none⟩ else s.head.run
      suspended := if s.head.passage = .none then s.head.suspended else some ⟨.thread, none, false, none⟩ } := by
  obtain ⟨quiet, ends⟩ := finishAlign_thread a ans h
  obtain ⟨w, fl, n, head⟩ := trialsOver_head quiet
  refine ⟨w, fl, n, ?_⟩
  rw [ends, placeRun_eq, head]

theorem PostsOnly.segs {t : State} (h : PostsOnly s t) : t.web.segs = s.web.segs := by
  obtain ⟨mem, port, rfl | rfl⟩ := h <;> rfl

end Ends

/-- Settles O28: the request as `decideAlign_allowed` decides it, the trials as `wantTrial_cases` and `trialOutcome_cases` give them, and
their end in THREAD by `finishAlign_thread`. -/
theorem alignBladeTrials : Obligations.AlignBladeTrials := by
  refine ⟨fun e q s x roll hd => ?_, fun e q s x hd => ?_, fun s a step r ha => ?_, fun a ans s h => ?_,
    fun s k r a roll hk hb => ?_, fun a ans s h => ?_⟩
  · intro u hb
    refine ⟨fun no => exec_of_dispatches hd rfl rfl (decideAlign_refused hb no), fun hl ha full =>
      exec_of_dispatches hd rfl rfl ((decideAlign_allowed hb hl ha).trans (if_pos full)), fun hl ha room => ?_⟩
    intro v t
    have begins : decideAlign x.no u = headAgain (beginTrials roll v) :=
      (decideAlign_allowed hb hl ha).trans (if_neg (Nat.not_le.2 room))
    have held : (v.entry x.no).map Entry.stage = some .running :=
      setStage_stage (s := { u with head.aligned := false, head.align := some ⟨some x.no, 0, 0, none⟩, head.state := .aligning })
        .running (holdsEntry_of_dispatches hd)
    by_cases hp : u.head.passage = .none
    · have ht : t = { appendSeg .trial roll none v with head.run := some ⟨.trial, none, true, none⟩, head.again := true } := if_pos hp
      have thread : v.line.state = .thread := hl
      have out : v.line.state ≠ .hold := by rw [thread]; decide
      have quiet := closeNewest_addRef_quiet out roll
      have appended := appendSeg_newest out .trial roll none
      obtain ⟨same, dropped⟩ := quiet.held_of_port
      rw [ht]
      refine ⟨exec_of_dispatches hd rfl rfl (begins.trans (congrArg headAgain (beginTrials_at_once (s := v) hp room))),
        quiet.kept Head.aligned fun _ _ _ _ => rfl, quiet.kept Head.offset fun _ _ _ _ => rfl, fun stays => (same stays).2,
        fun faults => (dropped faults).2, quiet.kept Head.state fun _ _ _ _ => rfl, rfl, held, fun _ => ⟨rfl, appended⟩,
        fun behind => absurd hp behind⟩
    · have ht : t = { v with head.suspended := some ⟨.trial, none, false, none⟩, head.again := true } := if_neg hp
      rw [ht]
      exact ⟨exec_of_dispatches hd rfl rfl (begins.trans (congrArg headAgain (beginTrials_behind (s := v) hp))), rfl, rfl, fun _ => rfl,
        fun faults => absurd rfl faults, rfl, rfl, held, fun none => absurd none hp, fun _ => ⟨rfl, rfl, rfl, rfl, rfl⟩⟩
  · intro u hb
    exact exec_of_dispatches hd rfl rfl (decideAlign_no_roll hb)
  · intro b t late
    have outcome := trialOutcome_cases ha step r
    refine ⟨fun hl hs => outcome.trans (if_pos ⟨hl, by omega⟩), fun hl hs => ?_, fun hl hs => ?_, fun hl hs => ?_⟩
    · subst hs
      rw [outcome, if_neg (fun h => h.2 rfl), if_pos (.inl hl), decide_eq_true hl]
      rfl
    · subst hs
      rw [outcome, if_neg (fun h => hl h.1), if_pos (.inr rfl), decide_eq_false hl]
      rfl
    · rw [outcome, if_neg (fun h => hl h.1), if_neg (fun h => h.elim hl hs)]
  · intro t
    obtain ⟨w, fl, n, head⟩ := finishAlign_head a ans h
    have set : ∀ {α : Type} (field : Head → α), field t.head = _ := fun field => congrArg field head
    refine ⟨set Head.align, set Head.state, set Head.again, set Head.aligned, set Head.offset, set Head.f,
      set Head.o, fun none => (set Head.run).trans (if_pos none), fun behind =>
      ⟨(set Head.suspended).trans (if_neg behind), (set Head.run).trans (if_neg behind)⟩⟩
  · intro room len wants
    have length : s.chunkFor Config.trialLen r none = len := chunkFor_eq hk Config.trialLen r none
    obtain ⟨isOpen, shut⟩ := wantTrial_cases (a := a) hk hb length
    refine ⟨isOpen, fun ho trial => ?_⟩
    have kind : r.purpose.segKind = .trial := congrArg Purpose.segKind trial
    rw [kind] at shut
    exact shut ho
  · intro told shut idle v run
    obtain ⟨quiet, ends⟩ := finishAlign_thread a ans h
    have closed : told.trialShut = shut := by rw [State.trialShut, (concludeWatch_postsOnly a.entry ans s).segs]
    have ended : told.trialShut.unwanted.trialsOver = v := by
      rw [closed]
      rfl
    have passage : v.head.passage = s.head.passage := by
      obtain ⟨w, fl, n, head⟩ := trialsOver_head quiet
      rw [← ended, head]
    rw [ends, ended]
    exact ⟨fun none => if_pos (passage.trans none), fun behind => if_neg (passage ▸ behind)⟩

end Sys2Proof.Machine


/-! ### Await Panel Exit and Release Panel (O30, O31) -/

namespace Sys2Proof.Machine

/-- The record of a key after the records of that key have changed and kept it. -/
theorem find?_map_of_key {α : Type} (key : α → Nat) {n : Nat} {f : α → α} (hf : ∀ a, key a = n → key (f a) = n) (l : List α) :
    (l.map (fun a => if (key a == n) = true then f a else a)).find? (fun a => key a == n) =
      (l.find? (fun a => key a == n)).map f := by
  induction l with
  | nil => rfl
  | cons a l ih =>
    rw [List.map_cons]
    by_cases h : key a = n
    · simp [h, hf a h]
    · simpa [h] using ih

/-- R166: the entry of a request that reaches its owner knows the request. -/
theorem entry_of_dispatches {e : Env} {q : Req} {c : Call} {s : State} {x : Entry} (h : dispatches e q c s x = true) :
    ∃ y, (dispatched e q c s x).entry x.no = some y ∧ y.req = some (q, c) := by
  obtain ⟨y, hy⟩ := Option.isSome_iff_exists.1 (holdsEntry_of_dispatches h)
  have known := find?_map_of_key Entry.no (n := x.no) (f := fun y => { y with req := some (q, c) }) (fun _ hn => hn)
    (arrive e s).port.table
  obtain ⟨z, -, rfl⟩ := Option.map_eq_some_iff.1 (known.symm.trans hy)
  exact ⟨_, hy, rfl⟩

/-- R100: a delivery whose writes do not fault frees the panel. -/
theorem deliver_eq {no id : Nat} {s : State} {y : Entry} {q : Req} {c : Call} {p : Panel} (hy : s.entry no = some y)
    (hq : y.req = some (q, c)) (hp : s.findPanel id = some p) :
    deliver no id s =
      if s.storeOk (resultWrites q (s.deliveryAnswer q p)) = true then (freePanel id (conclude no (s.deliveryAnswer q p) s), true)
      else (conclude no (s.deliveryAnswer q p) s, false) := by
  simp only [deliver, hy, hp, hq]

/-- R98, R100, R101: the oldest Await leaves the list, and a delivery that faults passes the panel on. -/
theorem offerTo_cons (no : Nat) (rest : List Nat) (id : Nat) (s : State) :
    let d := deliver no id { s with web.awaits := s.web.awaits.filter (fun x => x != no) }
    (d.2 = true → offerTo (no :: rest) id s = d.1) ∧ (d.2 = false → offerTo (no :: rest) id s = offerTo rest id d.1) := by
  intro d
  refine ⟨fun h => if_pos h, fun h => if_neg (Bool.eq_false_iff.1 h)⟩

/-- R99: Await Panel Exit with room for a record takes the oldest EXITED panel, or waits for one. -/
theorem decideAwait_room {no : Nat} {q : Req} {s : State} (room : 72 ≤ dataTotal q.data) :
    (s.web.exits = [] → decideAwait no q s = holdRunning no { s with web.awaits := s.web.awaits ++ [no] }) ∧
    (∀ id rest, s.web.exits = id :: rest → decideAwait no q s = (deliver no id s).1) := by
  have fits : ¬ dataTotal q.data < Config.panelBytes := Nat.not_lt.2 room
  refine ⟨fun h => ?_, fun id rest h => ?_⟩ <;> rw [decideAwait, if_neg fits, h]

/-- Settles O30: the request is decided by the exit order, and one delivery says what the request and what an offer does. -/
theorem awaitPanelExitDeliversOrWaits : Obligations.AwaitPanelExitDeliversOrWaits := by
  refine ⟨?_, fun id s => rfl, ?_, fun id s => rfl⟩
  · intro e q s x hd u delivers ok
    have answered : ∀ t, decideAwait x.no q u = t → exec (.awaitPanelExit e q) s = .next (settle t) :=
      fun t ht => exec_of_dispatches hd rfl rfl ht
    obtain ⟨y, hy, hq⟩ := entry_of_dispatches hd
    have delivered : ∀ id p, u.findPanel id = some p → deliver x.no id u =
        if ok p = true then (freePanel id (conclude x.no (delivers p) u), true) else (conclude x.no (delivers p) u, false) :=
      fun id p hp => deliver_eq hy hq hp
    refine ⟨fun short => answered _ (if_pos short), fun room none => answered _ ((decideAwait_room room).1 none),
      fun id rest p room oldest hp hok => answered _ ?_, fun id rest p room oldest hp hok => answered _ ?_⟩
    · rw [(decideAwait_room room).2 id rest oldest, delivered id p hp, if_pos hok]
    · rw [(decideAwait_room room).2 id rest oldest, delivered id p hp, if_neg (Bool.eq_false_iff.1 hok)]
  · intro no rest id s y q c p hy hq hp v a ok
    have delivered : deliver no id v =
        if ok = true then (freePanel id (conclude no a v), true) else (conclude no a v, false) := deliver_eq hy hq hp
    obtain ⟨taken, passed⟩ := offerTo_cons no rest id s
    rw [delivered] at taken passed
    refine ⟨fun hok => ?_, fun hok => ?_⟩ <;> simp only [hok, if_true, Bool.false_eq_true, if_false] at taken passed
    · exact taken trivial
    · exact passed trivial

/-- R102: Release Panel of a key that can name a panel, by the record found. -/
theorem decideRelease_inRange {no : Nat} {q : Req} {s : State} (h1 : 1 ≤ q.key.toNat) (h2 : q.key.toNat ≤ 65535) :
    (s.findPanel q.key.toNat = none → decideRelease no q s = conclude no (refusal .noRecord Sense.none) s) ∧
    (∀ p, s.findPanel q.key.toNat = some p → decideRelease no q s =
      if p.state = .exited then conclude no done (freePanel q.key.toNat s)
      else conclude no (refusal .wrongState (senseVals [natVal p.state.code])) s) := by
  have inRange : ¬ (q.key.toNat = 0 ∨ 65535 < q.key.toNat) := by omega
  refine ⟨fun h => ?_, fun p h => ?_⟩ <;> simp only [decideRelease, if_neg inRange, h]

/-- Settles O31: the key's range first, then the record the key names and its state. -/
theorem releasePanelFollowsR102 : Obligations.ReleasePanelFollowsR102 := by
  intro e q s x hd u id
  have answered : ∀ t, decideRelease x.no q u = t → exec (.releasePanel e q) s = .next (settle t) :=
    fun t ht => exec_of_dispatches hd rfl rfl ht
  have decided := fun h1 h2 => decideRelease_inRange (no := x.no) (q := q) (s := u) h1 h2
  refine ⟨fun out => ⟨_, answered _ (if_pos out)⟩, fun h1 h2 absent => ⟨_, answered _ ((decided h1 h2).1 absent)⟩,
    fun p h1 h2 hp inUse => ⟨_, rfl, answered _ (((decided h1 h2).2 p hp).trans (if_neg ?_))⟩,
    fun p h1 h2 hp exited => answered _ (((decided h1 h2).2 p hp).trans (if_pos exited))⟩
  rcases inUse with h | h <;> rw [h] <;> decide

/-! ### Purge Web (O32) -/

/-- R105: Purge Web is refused outside OFF and STANDBY, then with a unit in flight. -/
theorem decidePurge_cases (no : Nat) (s : State) :
    (s.line.state ≠ .off → s.line.state ≠ .standby → decidePurge no s = conclude no s.wrongLine s) ∧
    (s.line.state = .off ∨ s.line.state = .standby →
      (s.head.flight ≠ none →
        decidePurge no s = conclude no (refusal .wrongState (senseVals [natVal s.head.state.code])) s) ∧
      (s.head.flight = none → decidePurge no s = conclude no
        (doneParams [(0, [b8 s.closedSegs.length, b8 (s.closedSegs.countP (fun g => g.kind == .panel))])]) (purgeWeb s))) := by
  refine ⟨fun hoff hstandby => if_pos ⟨hoff, hstandby⟩, fun still => ?_⟩
  have allowed : ¬ (s.line.state ≠ .off ∧ s.line.state ≠ .standby) := fun h => still.elim h.1 h.2
  rw [decidePurge, if_neg allowed]
  exact ⟨fun flying => if_pos (Option.isSome_iff_ne_none.2 flying), fun idle => if_neg (by rw [idle]; exact Bool.false_ne_true)⟩

/-- R97: GOOD exactly when no reason is set. -/
theorem verdict_eq_good_iff (r : Reasons) : r.verdict = .good ↔ r = ⟨false, false, false, false, false, false⟩ := by
  obtain ⟨underset, scorched, missed, cut, unregistered, purged⟩ := r
  have unset : ∀ b k, bit b k = 0 ↔ b = false := by
    intro b k
    cases b <;> simp [bit]
  simp only [Reasons.verdict, Reasons.bits, Reasons.mk.injEq, ite_eq_left_iff, reduceCtorEq, imp_false, not_not, Nat.add_eq_zero_iff,
    unset, and_assoc]

/-- Settles O32: the refusals, and then the steps of R105 as the purge takes them; PURGED alone makes a REJECT. -/
theorem purgeWebEmptiesTheMap : Obligations.PurgeWebEmptiesTheMap := by
  refine ⟨?_, ?_⟩
  · intro e q s x hd u closed openOnes bare left gone
    have answered : ∀ t, decidePurge x.no u = t → exec (.purgeWeb e q) s = .next (settle t) :=
      fun t ht => exec_of_dispatches hd rfl rfl ht
    have purged : purgeWeb u = publish (if closed = [] then gone else reportPlaces gone) := by
      simp only [purgeWeb, List.isEmpty_iff]
      rfl
    obtain ⟨moving, still⟩ := decidePurge_cases x.no u
    refine ⟨fun hoff hstandby => answered _ (moving hoff hstandby), fun hl => ⟨fun flying => answered _ ((still hl).1 flying),
      fun idle => answered _ (((still hl).2 idle).trans ?_)⟩⟩
    rw [purged]
    rfl
  · intro p s y
    have rejected : y.verdict ≠ .good := fun good =>
      Bool.false_ne_true (congrArg Reasons.purged ((verdict_eq_good_iff y).1 good)).symm
    refine ⟨rfl, rfl, rfl, decide_eq_true_iff, rfl, rfl, ?_⟩
    cases hv : y.verdict
    case good => exact absurd hv rejected
    case reject => rfl

end Sys2Proof.Machine

/-! ### What the ends of requests, rolls and orders leave of the web (O33, O34) -/

namespace Sys2Proof.Machine

/-- The web map stays, but for the waiting Awaits, which a ring fault drops (R172, R175). -/
def WebStays (s t : State) : Prop := t.web = s.web ∨ t.web = { s.web with awaits := [] }

namespace WebStays

variable {s t u : State}

theorem of_web (h : t.web = s.web) : WebStays s t := .inl h

theorem trans (a : WebStays s t) (b : WebStays t u) : WebStays s u := by
  rcases b with b | b <;> rcases a with a | a
  · exact .inl (b.trans a)
  · exact .inr (b.trans a)
  · exact .inr (by rw [b, a])
  · exact .inr (by rw [b, a])

/-- No Await comes to wait. -/
theorem no_awaits (h : WebStays s t) (none : s.web.awaits = []) : t.web.awaits = [] := by
  rcases h with h | h <;> rw [h]
  exact none

theorem nextSeg (h : WebStays s t) : t.web.nextSeg = s.web.nextSeg := by rcases h with h | h <;> rw [h]

end WebStays

theorem PostsOnly.webStays {s t : State} (h : PostsOnly s t) : WebStays s t := by
  obtain ⟨mem, port, rfl | rfl⟩ := h
  · exact .inl rfl
  · exact .inr rfl

theorem lineTo_web (st : LineState) (s : State) : (lineTo st s).web = s.web := by
  rw [lineTo_eq]
  unfold triggerTest
  split <;> rfl

theorem testRun_webStays (s : State) : WebStays s (testRun s) := by
  unfold testRun
  split
  · refine .trans (.of_web (lineTo_web .run s)) ?_
    exact .trans (.of_web rfl) (concludeWatch_postsOnly _ _ _).webStays
  · exact .of_web rfl

theorem clearReason_webStays (r : HoldReason) (s : State) : WebStays s (clearReason r s) := by
  unfold clearReason
  split
  · simp only
    split
    · refine .trans (.of_web ?_) (testRun_webStays _)
      exact lineTo_web _ _
    · exact .of_web rfl
  · exact .of_web rfl

theorem reportPlaces_webStays (s : State) : WebStays s (reportPlaces s) := by
  unfold reportPlaces
  simp only
  split
  · refine .trans ?_ (clearReason_webStays _ _)
    exact .of_web rfl
  · exact .of_web rfl

theorem reportCandidate_webStays (s : State) : WebStays s (reportCandidate s) := by
  unfold reportCandidate
  split
  · refine .trans ?_ (clearReason_webStays _ _)
    exact .of_web rfl
  · exact .of_web rfl

theorem dropRef_webStays (tag : Nat) (s : State) : WebStays s (dropRef tag s) := by
  unfold dropRef endRollRetirement
  split
  · split
    · exact .trans (.of_web rfl) (concludeWatch_postsOnly _ _ _).webStays
    · exact .of_web rfl
  · exact .of_web rfl

theorem removeOrder_webStays (o : Order) (s : State) : WebStays s (removeOrder o s) := by
  obtain ⟨stays, freed⟩ := removeOrder_cases o s
  by_cases h : (s.slot o.pattern).state = .retiring ∧ (s.slot o.pattern).uses ≤ 1
  · rw [freed h.1 h.2]
    exact .trans (.of_web rfl) (concludeWatch_postsOnly _ _ _).webStays
  · rw [stays h]
    exact .of_web rfl

theorem completeOrder_webStays (tag : Nat) (s : State) : WebStays s (completeOrder tag s) := by
  unfold completeOrder
  split
  · split
    · exact (removeOrder_webStays _ s).trans (concludeWatch_postsOnly _ _ _).webStays
    · exact .of_web rfl
  · exact .of_web rfl

theorem orderExit_webStays (tag : Nat) (v : Verdict) (r : Reasons) (s : State) : WebStays s (orderExit tag v r s) := by
  unfold orderExit
  split
  · exact .of_web rfl
  · simp only
    split
    · split
      · exact .trans (.of_web rfl) (reportCandidate_webStays _)
      · exact .of_web rfl
    · exact .trans (.of_web rfl) (completeOrder_webStays _ _)

/-! ### Roll references and retirements (O33) -/

section Retirements

variable {tag : Nat} {s : State} {r : Roll}

/-- R47: a retirement ends when no segment and no spindle names its SPENT roll. -/
theorem endRollRetirement_cases (hr : s.findRoll tag = some r) :
    let ends := r.state = .spent ∧ r.refs = 0 ∧ r.spindle = none ∧ r.watch ≠ none
    (¬ ends → endRollRetirement tag s = s) ∧ (ends → endRollRetirement tag s = concludeWatch r.watch done (removeRoll tag s)) := by
  intro ends
  have due : (r.releasable = true ∧ r.watch.isSome = true) ↔ ends := by
    simp only [ends, Roll.releasable, Bool.and_eq_true, beq_iff_eq, Option.isNone_iff_eq_none, Option.isSome_iff_ne_none, and_assoc]
  simp only [endRollRetirement, hr, due]
  exact ⟨fun h => if_neg h, fun h => if_pos h⟩

/-- R42: a count lowered, and the test for the end of the roll's retirement. -/
theorem dropRef_cases (hr : s.findRoll tag = some r) :
    let lowered := s.mapRoll tag (fun y => { y with refs := y.refs - 1 })
    let ends := r.state = .spent ∧ r.refs ≤ 1 ∧ r.spindle = none ∧ r.watch ≠ none
    (¬ ends → dropRef tag s = lowered) ∧ (ends → dropRef tag s = concludeWatch r.watch done (removeRoll tag lowered)) := by
  intro lowered ends
  have found : lowered.findRoll tag = some { r with refs := r.refs - 1 } :=
    (find?_map_of_key Roll.tag (f := fun y => { y with refs := y.refs - 1 }) (fun _ h => h) _).trans (congrArg (Option.map _) hr)
  have last : r.refs - 1 = 0 ↔ r.refs ≤ 1 := by omega
  obtain ⟨stays, leaves⟩ := endRollRetirement_cases found
  simp only [last] at stays leaves
  exact ⟨stays, leaves⟩

end Retirements

/-! ### Segments opened, merged, appended and closed (O33) -/

section Segments

variable {s : State} {rest : List Segment} {g : Segment} (hs : s.web.segs = rest ++ [g])
include hs

theorem newestSeg_of_concat : s.newestSeg = some g := by rw [State.newestSeg, hs, List.getLast?_concat]

/-- R90: what the closing does to the newest segment, by whether it is open and holds web. -/
theorem closeNewest_cases :
    (g.fEnd ≠ none → closeNewest s = s) ∧
    (g.fEnd = none → g.oStart ≠ s.head.o ∨ g.kind = .panel →
      closeNewest s = { s with web.segs := rest ++ [{ g with fEnd := some s.head.f, oEnd := some s.head.o }] }) ∧
    (g.fEnd = none → g.oStart = s.head.o → g.kind ≠ .panel →
      closeNewest s = reportPlaces (dropRef g.roll { s with web.segs := rest })) := by
  have dropped : s.web.segs.dropLast = rest := by rw [hs, List.dropLast_concat]
  simp only [closeNewest, newestSeg_of_concat hs, dropped]
  have unended : g.fEnd = none → ¬ g.fEnd.isSome = true := fun isOpen => by rw [isOpen]; exact Bool.false_ne_true
  refine ⟨fun shut => if_pos (Option.isSome_iff_ne_none.2 shut), fun isOpen stays => ?_, fun isOpen noWeb other => ?_⟩
  · have holds : ¬ (g.oStart = s.head.o ∧ g.kind ≠ .panel) := fun h => stays.elim (absurd h.1) h.2
    exact (if_neg (unended isOpen)).trans (if_neg holds)
  · exact (if_neg (unended isOpen)).trans (if_pos ⟨noWeb, other⟩)

end Segments

section Starts

variable {s : State}

theorem closeNewest_of_nil (hs : s.web.segs = []) : closeNewest s = s := by
  rw [closeNewest, State.newestSeg, hs]
  rfl

/-- R88, R89: an appended segment starts where the one before it ends, or else at O. -/
theorem nextStart_eq (s : State) : s.nextStart = (s.web.segs.getLast?.bind Segment.oEnd).getD s.head.o := by
  unfold State.nextStart State.newestSeg
  cases s.web.segs.getLast? <;> rfl

theorem nextStart_of_nil (hs : s.web.segs = []) : s.nextStart = s.head.o := by
  rw [nextStart_eq, hs]
  rfl

theorem nextStart_of_concat {rest : List Segment} {g : Segment} (hs : s.web.segs = rest ++ [g]) :
    s.nextStart = g.oEnd.getD s.head.o := by
  rw [nextStart_eq, hs, List.getLast?_concat]
  rfl

end Starts

/-- R89: a FLAT merges into a newest FLAT of the same roll. -/
theorem merges_iff (s : State) (kind : SegKind) (roll : Nat) : s.merges kind roll = true ↔
    kind = .flat ∧ ∃ g, s.web.segs.getLast? = some g ∧ g.kind = .flat ∧ g.roll = roll := by
  simp [State.merges, State.newestSeg, Option.any_eq_true]

/-- R42: a roll's count raised. -/
theorem addRef_eq (roll : Nat) (s : State) : addRef roll s = { s with
    turret.rolls := s.turret.rolls.map (fun r => if r.tag = roll then { r with refs := r.refs + 1 } else r) } := by
  simp only [addRef, State.mapRoll, beq_iff_eq]

/-- R89, step 3: a segment put at the end of the list that the closing left, where the closing moves neither F nor the next number. -/
theorem appendSeg_of_closed {kind : SegKind} {roll : Nat} {panel : Option Nat} {s t : State} {o : Nat}
    (closed : closeNewest (addRef roll s) = t) (f : t.head.f = s.head.f) (next : t.web.nextSeg = s.web.nextSeg)
    (start : t.nextStart = o) : appendSeg kind roll panel s = { t with
      web.segs := t.web.segs ++ [⟨s.web.nextSeg, kind, roll, panel, s.head.f, none, o, none⟩]
      web.nextSeg := (s.web.nextSeg + 1) % 65536 } := by
  rw [← f, ← next, ← start, ← closed]
  rfl

/-- R42, R106: a count lowered and the places reported leave the list of segments, F and O. -/
theorem reportPlaces_dropRef_keeps (tag : Nat) (s : State) :
    let t := reportPlaces (dropRef tag s)
    t.web.segs = s.web.segs ∧ t.web.nextSeg = s.web.nextSeg ∧ t.head.f = s.head.f ∧ t.head.o = s.head.o := by
  have drawn := (reportPlaces_drawn (dropRef tag s)).trans (dropRef_drawn tag s)
  simp only [State.drawn, Prod.mk.injEq] at drawn
  obtain ⟨⟨-, -, -, f, o⟩, segs, -⟩ := drawn
  exact ⟨segs, ((dropRef_webStays tag s).trans (reportPlaces_webStays _)).nextSeg, f, o⟩

/-- Settles O33: a segment asked for by `merges`; the closing and the append by the newest segment; the counts by their roll. -/
theorem segmentsOpenMergeAndClose : Obligations.SegmentsOpenMergeAndClose := by
  refine ⟨?_, ?_, ?_, ?_, ?_, ?_⟩
  · intro kind roll panel s merges
    have decided : s.merges kind roll = true ↔ merges := merges_iff s kind roll
    refine ⟨fun g hk hs hg hr => ?_, fun apart full => ?_, fun apart room => ?_⟩
    · rw [openSeg, if_pos (decided.2 ⟨hk, g, hs, hg, hr⟩), reopenNewest, State.newestSeg, hs]
    · rw [openSeg, if_neg (mt decided.1 apart)]
      exact if_pos full
    · rw [openSeg, if_neg (mt decided.1 apart)]
      exact if_neg (Nat.not_le.2 room)
  · intro kind roll panel s new grown
    have appended : ∀ segs o, { addRef roll s with web.segs := segs ++ [new o], web.nextSeg := (s.web.nextSeg + 1) % 65536 } =
        grown segs o := by
      intro segs o
      rw [addRef_eq]
    refine ⟨fun hs => ?_, fun rest g f o hs hf ho => ?_, fun rest g hs hf stays => ?_⟩
    · have start : (addRef roll s).nextStart = s.head.o := nextStart_of_nil hs
      rw [appendSeg_of_closed (closeNewest_of_nil hs) rfl rfl start, ← appended, ← hs]
      rfl
    · have shut : g.fEnd ≠ none := by simp [hf]
      have closed := (closeNewest_cases (s := addRef roll s) hs).1 shut
      have start : (addRef roll s).nextStart = o := (nextStart_of_concat (s := addRef roll s) hs).trans (by rw [ho]; rfl)
      rw [appendSeg_of_closed closed rfl rfl start, ← appended]
      rfl
    · have closed := (closeNewest_cases (s := addRef roll s) hs).2.1 hf stays
      rw [appendSeg_of_closed closed rfl rfl (nextStart_of_concat rfl), ← appended]
      rfl
  · exact fun s => ⟨closeNewest_of_nil, fun rest g hs => closeNewest_cases hs⟩
  · intro tag s r hr t ends
    have lowered : s.mapRoll tag (fun y => { y with refs := y.refs - 1 }) = t := by simp only [State.mapRoll, beq_iff_eq, t]
    obtain ⟨stays, leaves⟩ := dropRef_cases hr
    rw [lowered] at stays leaves
    exact ⟨stays, leaves⟩
  · intro tag s
    refine ⟨fun absent => ?_, fun r hr => endRollRetirement_cases hr⟩
    rw [endRollRetirement, absent]
  · intro kind roll panel s rest g hs hf noWeb other t o
    have raised := congrArg (fun v : State => reportPlaces (dropRef g.roll { v with web.segs := rest })) (addRef_eq roll s)
    have closed : closeNewest (addRef roll s) = t :=
      ((closeNewest_cases (s := addRef roll s) hs).2.2 hf noWeb other).trans raised
    obtain ⟨segs, next, f, headO⟩ := reportPlaces_dropRef_keeps g.roll { s with
      turret.rolls := s.turret.rolls.map (fun r => if r.tag = roll then { r with refs := r.refs + 1 } else r), web.segs := rest }
    have start : t.nextStart = o := by
      have before : o = (rest.getLast?.bind Segment.oEnd).getD s.head.o := by
        show (match rest.getLast? with | some y => y.oEnd.getD s.head.o | none => s.head.o) = _
        cases rest.getLast? <;> rfl
      rw [nextStart_eq, before, show t.web.segs = rest from segs, show t.head.o = s.head.o from headO]
    rw [appendSeg_of_closed closed f next start, show t.web.segs = rest from segs]

/-! ### Credit, removal and judgement (O34) -/

/-- R95: only the panel of a PANEL occupant is updated. -/
theorem creditPanel_cases (n dose peak : Nat) (s : State) :
    (∀ g id, s.segNumbered n = some g → g.kind = .panel → g.panel = some id → creditPanel n dose peak s =
      s.mapPanel id (fun p => { p with
        minDose := some (match p.minDose with | some d => min d dose | none => dose), peak := max p.peak peak })) ∧
    (s.segNumbered n = none ∨ (∃ g, s.segNumbered n = some g ∧ g.kind ≠ .panel) → creditPanel n dose peak s = s) := by
  refine ⟨fun g id hg hk hid => ?_, ?_⟩
  · unfold creditPanel
    split
    next h hh =>
      cases hg.symm.trans hh
      split
      next named =>
        cases hid.symm.trans named
        rfl
      next unnamed => exact absurd hid (unnamed id hk)
    next absent => cases hg.symm.trans absent
  · rintro (hg | ⟨g, hg, hk⟩) <;> simp only [creditPanel, hg]
    split
    next panel _ => exact absurd panel hk
    next => rfl

/-- R96: the segments that leave are the longest run of the oldest that lie below the bound. -/
theorem removeBelow_split {bound : Nat} {s : State} {gone kept : List Segment} (hs : s.web.segs = gone ++ kept)
    (below : ∀ g ∈ gone, g.below bound = true) (above : ∀ g, kept.head? = some g → g.below bound = false) :
    removeBelow bound s =
      let t := gone.foldl (removedSeg State.reasonsOf) { s with web.segs := kept }
      if gone = [] then t else reportPlaces t := by
  have taken : kept.takeWhile (Segment.below bound) = [] ∧ kept.dropWhile (Segment.below bound) = kept := by
    cases kept with
    | nil => exact ⟨rfl, rfl⟩
    | cons g kept => simp [above g rfl]
  simp only [removeBelow, hs, List.takeWhile_append_of_pos below, List.dropWhile_append_of_pos below, taken, List.append_nil,
    List.isEmpty_iff]

theorem below_iff (bound : Nat) (g : Segment) : g.below bound = true ↔ ∃ o, g.oEnd = some o ∧ o ≤ bound := by
  simp [Segment.below, Option.any_eq_true]

/-- R97: the reasons of a panel whose roll and class are known. -/
theorem reasonsOf_cases {p : Panel} {s : State} {r : Roll} {f : FibreClass} (hr : s.findRoll p.roll = some r)
    (hf : s.fibre r.cls = some f) :
    let y := s.reasonsOf p
    (y.underset = true ↔ p.minDose = none ∨ ∃ d, p.minDose = some d ∧ d < f.dose) ∧
    (y.scorched = true ↔ f.tmax < p.peak) ∧ (y.missedFolds = true ↔ s.k.missTolerance < p.missed) ∧
    y.cut = p.cut ∧ y.unregistered = p.unregistered ∧ y.purged = false := by
  simp only [State.reasonsOf, hr, hf, Option.map_some, Option.getD_some]
  refine ⟨?_, decide_eq_true_iff, decide_eq_true_iff, trivial, trivial, trivial⟩
  cases p.minDose <;> simp

/-! ### Exits (O34) -/

/-- R98: the panel EXITED and judged, in the exit order, and its exit counted by its order. -/
def State.exitCounted (s : State) (p : Panel) (r : Reasons) : State := orderExit p.order r.verdict r { s with
  web.panels := s.web.panels.map (fun y => if y.id = p.id then { y with
    state := .exited, exitTime := some s.line.clock, segment := none, verdict := some r.verdict, reasons := r
    purged := y.purged || r.purged } else y)
  web.exits := s.web.exits ++ [p.id] }

/-- R98: the panel is then offered to the Awaits that still wait. -/
theorem exitPanel_eq (p : Panel) (r : Reasons) (s : State) :
    exitPanel p r s = offerTo (s.exitCounted p r).web.awaits p.id (s.exitCounted p r) := by
  simp only [exitPanel, State.mapPanel, beq_iff_eq]
  rfl

/-- R98: with no Await waiting the panel stays, whatever its order's end brings about. -/
theorem exitPanel_unawaited {s : State} (none : s.web.awaits = []) (p : Panel) (r : Reasons) : exitPanel p r s = s.exitCounted p r := by
  have still : (s.exitCounted p r).web.awaits = [] := (orderExit_webStays p.order r.verdict r _).no_awaits none
  rw [exitPanel_eq, still]
  rfl

theorem exitSeg_cases (reasons : State → Panel → Reasons) (g : Segment) (s : State) :
    (∀ id p, g.kind = .panel → g.panel = some id → s.findPanel id = some p →
      exitSeg reasons s g = exitPanel p (reasons s p) s) ∧
    (g.kind ≠ .panel → exitSeg reasons s g = s) := by
  refine ⟨fun id p hk hid hp => ?_, fun hk => ?_⟩
  · simp only [exitSeg, hk, hid, hp]
  · unfold exitSeg
    split
    next panel _ => exact absurd panel hk
    next => rfl

/-! ### The exit counted by its order (O34) -/

section OrderExits

variable {tag : Nat} {v : Verdict} {r : Reasons} {s : State} {o : Order}

theorem counted_eq (o : Order) (v : Verdict) : o.counted v =
    if v = .good then { o with live := o.live - 1, good := o.good + 1 }
    else { o with live := o.live - 1, reject := min 65535 (o.reject + 1) } := by cases v <;> rfl

theorem counted_tag (o : Order) (v : Verdict) : (o.counted v).tag = o.tag := by cases v <;> rfl

theorem counted_state (o : Order) (v : Verdict) : (o.counted v).state = o.state := by cases v <;> rfl

theorem counted_cancel (o : Order) (v : Verdict) : (o.counted v).cancel = o.cancel := by cases v <;> rfl

theorem earnsRemake_iff : o.earnsRemake v r = true ↔
    v = .reject ∧ r.cut = false ∧ o.remakes < o.remakeLimit ∧ o.cancel = false := by
  simp [Order.earnsRemake, and_assoc]

variable (ho : s.findOrder tag = some o)
include ho

/-- The order of a tag replaced by a record with that tag. -/
theorem findOrder_put {z : Order} (hz : z.tag = tag) : (s.mapOrder tag (fun _ => z)).findOrder tag = some z :=
  (find?_map_of_key Order.tag (fun _ _ => hz) s.orders).trans (congrArg (Option.map _) ho)

/-- R57, R58: an exit that earns no remake, and the completion test after it. -/
theorem orderExit_no_remake (none : o.earnsRemake v r = false) :
    let z := o.counted v
    let put := s.mapOrder tag (fun _ => z)
    (z.m = 0 → z.live = 0 → orderExit tag v r s = concludeWatch o.watch (endAnswer z o.cancel) (removeOrder z put)) ∧
    (¬ (z.m = 0 ∧ z.live = 0) → orderExit tag v r s = put) := by
  intro z put
  have found : put.findOrder tag = some z := findOrder_put ho ((counted_tag o v).trans (findOrder_tag ho))
  have counts : orderExit tag v r s = completeOrder tag put := by
    simp only [orderExit, ho, none, Bool.false_eq_true, if_false]
    rfl
  obtain ⟨leaves, stays⟩ := completeOrder_cases found
  rw [counts, ← counted_watch o v, ← counted_cancel o v]
  exact ⟨leaves, fun owes => stays (not_and_or.1 owes)⟩

/-- R57, step 3: an exit that earns a remake, by whether the order is out of the queue. -/
theorem orderExit_remake (earned : o.earnsRemake v r = true) :
    (o.state ≠ .awaitingExit → orderExit tag v r s = s.mapOrder tag (fun _ =>
      { o.counted v with m := (o.counted v).m + 1, remakes := (o.counted v).remakes + 1 })) ∧
    (o.state = .awaitingExit → orderExit tag v r s = reportCandidate { s with
      orders := s.orders.filter (fun x => x.tag != tag) ++
        [{ o.counted v with m := (o.counted v).m + 1, remakes := (o.counted v).remakes + 1, state := .queued }] }) := by
  simp only [orderExit, ho, earned, if_true, Order.remade, counted_state]
  refine ⟨fun queued => ?_, fun awaiting => ?_⟩
  · rw [if_neg queued, if_neg queued, ← counted_state o v]
  · rw [if_pos awaiting, if_pos awaiting]

end OrderExits

/-- Settles O34: the leaving cell, the judgement, the exit and its count, each by its own cases. -/
theorem panelsExitAndAreCounted : Obligations.PanelsExitAndAreCounted := by
  refine ⟨creditPanel_cases, ?_, fun p s r f => reasonsOf_cases, verdict_eq_good_iff,
    fun p r s none => exitPanel_unawaited none p r, ?_, exitPanel_eq, ?_, ?_⟩
  · intro bound s gone kept hs low high
    have removed := removeBelow_split hs (fun g hg => (below_iff bound g).2 (low g hg)) fun g hg =>
      Bool.eq_false_iff.2 fun below => by
        obtain ⟨o, ho, hle⟩ := (below_iff bound g).1 below
        exact Nat.not_le.2 (high g hg o ho) hle
    refine ⟨fun none => ?_, fun some => removed.trans (if_neg some)⟩
    have same : s.web.segs = kept := by rw [hs, none, List.nil_append]
    rw [removed, if_pos none, none, ← same]
    rfl
  · intro tag v r s
    refine ⟨fun absent => by rw [orderExit, absent], fun o ho => ?_⟩
    intro remake counted remade put
    have count : o.counted v = counted := counted_eq o v
    have earns : o.earnsRemake v r = true ↔ remake := earnsRemake_iff
    refine ⟨fun no hm hl => ?_, fun no owes => ?_, fun yes queued => ?_, fun yes awaiting => ?_⟩
    · have leaves := (orderExit_no_remake ho (Bool.eq_false_iff.2 (mt earns.1 no))).1
      rw [count] at leaves
      exact leaves hm hl
    · have stays := (orderExit_no_remake ho (Bool.eq_false_iff.2 (mt earns.1 no))).2
      rw [count] at stays
      exact stays owes
    · have stays := (orderExit_remake ho (earns.2 yes)).1 queued
      rwa [count] at stays
    · have returns := (orderExit_remake ho (earns.2 yes)).2 awaiting
      rwa [count] at returns
  · intro reasons g s
    obtain ⟨exits, other⟩ := exitSeg_cases reasons g s
    exact ⟨fun id p hk hid hp => congrArg (dropRef g.roll) (exits id p hk hid hp), fun hk => congrArg (dropRef g.roll) (other hk)⟩
  · exact fun reasons g s => ⟨(exitSeg_cases reasons g s).1, (exitSeg_cases reasons g s).2, rfl⟩

end Sys2Proof.Machine

/-! ### The control law and a sample (O38, O39) -/

namespace Sys2Proof.Machine

/-- R111: a zone regulates when it has a target, is enabled, not faulted and not purging, and the sample is no over-temperature sample. -/
theorem regulate_cases (z : Zone) (par : ZoneParams) (hot : Bool) :
    (z.target = none ∨ z.enabled = false ∨ z.faulted = true ∨ z.purging = true ∨ hot = true → z.regulate par hot = z) ∧
    (∀ g, z.target = some g → z.enabled = true → z.faulted = false → z.purging = false → hot = false →
      z.regulate par hot = { z with duty := controlLaw par g z.reading z.duty }) := by
  unfold Zone.regulate
  refine ⟨fun stays => ?_, fun g hg he hf hp hh => ?_⟩
  · split
    next g hg =>
      refine if_neg fun ⟨he, hf, hh, hp⟩ => ?_
      rcases stays with h | h | h | h | h
      · rw [hg] at h; cases h
      · exact Bool.false_ne_true (h.symm.trans he)
      · exact hf h
      · exact hp h
      · exact hh h
    next => rfl
  · rw [hg]
    exact if_pos (by simp [he, hf, hp, hh])

/-- R112: the control law over the integers: the row that the reading falls in, clamped to 0..1000. -/
theorem controlLaw_eq_clamp (par : ZoneParams) (target reading duty : Nat) (h : duty ≤ 1000) :
    (controlLaw par target reading duty : Int) = max 0 (min 1000
      (if (reading : Int) < target - par.band then (duty : Int) + par.stepUp
      else if (target : Int) + par.leapAt < reading then duty - par.leapDown
      else if (target : Int) + par.band < reading then duty - par.stepDown
      else duty)) := by
  have cold : (reading : Int) < target - par.band ↔ reading + par.band < target := by omega
  have leap : (target : Int) + par.leapAt < reading ↔ target + par.leapAt < reading := by omega
  have warm : (target : Int) + par.band < reading ↔ target + par.band < reading := by omega
  simp only [controlLaw, cold, leap, warm]
  split
  · omega
  split
  · omega
  split <;> omega

/-- Settles O39, by the row of the law and by what lets a zone regulate. -/
theorem controlLawFollowsR112 : Obligations.ControlLawFollowsR112 := by
  intro par z target hd t d law
  exact ⟨controlLaw_eq_clamp par target z.reading z.duty hd,
    fun ht he hf hp => (regulate_cases z par false).2 target ht he hf hp rfl⟩

/-- R109: a sample by its kind, its reading and the fault run. -/
theorem classify_cases (z : Zone) (t : BitVec 12) :
    (t.toNat ≤ 2500 → z.classify (.reading t) =
      ({ z with reading := t.toNat, lastGood := t.toNat, faultRun := 0, faulted := false }, false)) ∧
    (2500 < t.toNat → z.classify (.reading t) =
      ({ z with reading := 2500, lastGood := 2500, faultRun := 0, faulted := false, duty := 0 }, true)) ∧
    (z.faultRun < 2 → z.classify .fault = ({ z with reading := z.lastGood, faultRun := z.faultRun + 1 }, false)) ∧
    (2 ≤ z.faultRun → z.classify .fault = ({ z with faultRun := 3, faulted := true, duty := 0, ready := false }, false)) :=
  ⟨fun h => if_pos h, fun h => if_neg (Nat.not_le.2 h), fun h => if_pos h, fun h => if_neg (Nat.not_lt.2 h)⟩

/-- R119: a filled cell credited with a reading. -/
theorem creditCell_filled {s : State} {c : Cell} {f : CellFill} {g : FibreClass} (hf : c.fill = some f) (hg : s.fibre f.cls = some g)
    (t : Nat) : s.creditCell t c =
      { c with fill := some { f with dose := min 16777215 (f.dose + (t - g.theta)), peak := max f.peak t } } := by
  rw [State.creditCell, hf, Option.map_some, hg]
  rfl

theorem creditCell_empty {s : State} {c : Cell} (hc : c.fill = none) (t : Nat) : s.creditCell t c = c := by
  rw [State.creditCell, hc, Option.map_none, ← hc]

/-- R116, R119: a credit works on the cells from the zone's first cell up to its length. -/
theorem creditZone_cell {z : ZoneId} {s : State} {i : Nat} {c : Cell} (hc : s.chest.cells[i]? = some c) :
    (creditZone z s).chest.cells[i]? =
      some (if zoneStart s.k z ≤ i ∧ i < zoneStart s.k z + zoneCells s.k z then s.creditCell (s.zone z).reading c else c) := by
  simp only [creditZone, List.getElem?_mapIdx, hc, Option.map_some]

/-- R109, R110: what a sample raises. -/
theorem sampleCause_cases (s : State) (z : ZoneId) (x : Sample) :
    let c := (s.zone z).classify x
    (s.line.state = .off ∨ c.2 = false ∧ c.1.faulted = false → s.sampleCause z x = none) ∧
    (s.line.state ≠ .off → c.2 = true → s.sampleCause z x = some .overtemp) ∧
    (s.line.state ≠ .off → c.2 = false → c.1.faulted = true → s.sampleCause z x = some .sensor) := by
  intro c
  have cause : s.sampleCause z x = if s.line.state = .off then none else if c.2 = true then some .overtemp
    else if c.1.faulted = true then some .sensor else none := rfl
  rw [cause]
  refine ⟨?_, fun on hot => ?_, fun on cool bad => ?_⟩
  · rintro (off | ⟨cool, good⟩)
    · exact if_pos off
    · simp [cool, good]
  · rw [if_neg on, if_pos hot]
  · rw [if_neg on, cool, if_neg Bool.false_ne_true, if_pos bad]

/-- Settles O38: the sample's class, the cells of its zone, its halt cause, and what keeps a zone from regulating. -/
theorem zoneSamplesWorked : Obligations.ZoneSamplesWorked := by
  refine ⟨?_, ?_, ?_, fun z par hot => (regulate_cases z par hot).1⟩
  · intro z t
    obtain ⟨inRange, hot, again, third⟩ := classify_cases z t
    exact ⟨inRange, hot, fun h => again (Nat.lt_succ_of_le h), third⟩
  · intro z s i c hc t lo len
    have first : zoneStart s.k z = lo := by cases z <;> rfl
    have cells : zoneCells s.k z = len := by cases z <;> rfl
    have credited := creditZone_cell (z := z) hc
    rw [first, cells] at credited
    refine ⟨fun hlo hhi f g hf hg => ?_, fun stays => ?_⟩
    · rw [credited, if_pos ⟨hlo, hhi⟩, creditCell_filled hf hg]
    · rw [credited]
      rcases stays with low | high | empty
      · rw [if_neg (by omega)]
      · rw [if_neg (by omega)]
      · rw [creditCell_empty empty, ite_self]
  · intro e z x s u c t rest
    obtain ⟨quiet, hot, bad⟩ := sampleCause_cases u z x
    have worked : ∀ cause w, u.sampleCause z x = cause → raiseCause cause t = w →
        exec (.zoneSample e z x) s = .next (settle (rest w)) := by
      rintro cause w rfl rfl
      rfl
    exact ⟨fun h => worked _ t (quiet h) rfl, fun on h => worked _ (raiseHalt .overtemp t) (hot on h) rfl,
      fun on h1 h2 => worked _ (raiseHalt .sensor t) (bad on h1 h2) rfl⟩

end Sys2Proof.Machine

/-! ### Set Zones (O35) -/

namespace Sys2Proof.Machine

/-- R124: the values pass when each flagged one is in its range. -/
theorem zonesFail_cons_eq_none {flags i off v lo hi : Nat} {rest : List (Nat × Nat × Nat × Nat)} :
    zonesFail flags i ((off, v, lo, hi) :: rest) = none ↔
      (bitSet flags i = true → lo ≤ v ∧ v ≤ hi) ∧ zonesFail flags (i + 1) rest = none := by
  by_cases bad : bitSet flags i = true ∧ ¬ (lo ≤ v ∧ v ≤ hi)
  · rw [zonesFail, if_pos bad]
    exact iff_of_false nofun fun ⟨inRange, _⟩ => bad.2 (inRange bad.1)
  · rw [zonesFail, if_neg bad]
    exact (and_iff_right fun flagged => not_not.1 fun out => bad ⟨flagged, out⟩).symm

/-- R124: whichever value is refused, the refusal is a BAD_PARAM. -/
theorem zonesFail_badParam {flags : Nat} {r : Answer} {vs : List (Nat × Nat × Nat × Nat)} :
    ∀ {i : Nat}, zonesFail flags i vs = some r → r.code = .badParam := by
  induction vs with
  | nil => exact nofun
  | cons v rest ih =>
    intro i refused
    rw [zonesFail] at refused
    split at refused
    · cases refused
      rfl
    · exact ih refused

/-- R124: the ten ranges. -/
theorem zoneValues_pass {a : ZonesArgs} {flags : Nat} : zonesFail flags 0 (zoneValues a) = none ↔
    let f := fun i => bitSet flags i = true
    let sp := fun (v : U16) => 800 ≤ v.toNat ∧ v.toNat ≤ 2200
    (f 0 → sp a.sp1) ∧ (f 1 → sp a.sp2) ∧ (f 2 → sp a.sp3) ∧ (f 3 → sp a.sp4) ∧
      (f 4 → 5 ≤ a.band.toNat ∧ a.band.toNat ≤ 200) ∧ (f 5 → a.drop.toNat ≤ 800) ∧
      (f 6 → 1 ≤ a.stepUp.toNat ∧ a.stepUp.toNat ≤ 200) ∧ (f 7 → 1 ≤ a.stepDown.toNat ∧ a.stepDown.toNat ≤ 200) ∧
      (f 8 → 50 ≤ a.leapAt.toNat ∧ a.leapAt.toNat ≤ 500) ∧ (f 9 → 1 ≤ a.leapDown.toNat ∧ a.leapDown.toNat ≤ 500) := by
  have last : ∀ i, zonesFail flags i [] = none := fun _ => rfl
  simp only [zoneValues, zonesFail_cons_eq_none, last, Nat.zero_le, true_and, and_true]

/-- R124: Set Zones by whether the flagged values pass. -/
theorem decideSetZones_cases (no : Nat) (a : ZonesArgs) (s : State) :
    (zonesFail a.flags.toNat 0 (zoneValues a) = none → decideSetZones no a s =
      conclude no (doneParams [(0x18, [b8 (editZones a s).enabledMarks])]) (editZones a s)) ∧
    (∀ r, zonesFail a.flags.toNat 0 (zoneValues a) = some r → decideSetZones no a s = conclude no r s) := by
  refine ⟨fun pass => ?_, fun r refused => ?_⟩
  · rw [decideSetZones, pass]
  · rw [decideSetZones, refused]

/-- R113: the ready mark by the target, the fault and the distance from the target. -/
theorem judge_cases (z : Zone) (par : ZoneParams) :
    let near := fun (g : Nat) => z.reading ≤ g + par.band ∧ g ≤ z.reading + par.band
    (z.target = none ∨ z.faulted = true → z.judge par = { z with ready := false }) ∧
    (∀ g, z.target = some g → z.faulted = false → near g → z.judge par = { z with ready := true }) ∧
    (∀ g, z.target = some g → ¬ near g → z.judge par = { z with ready := false }) := by
  intro near
  have marked : ∀ b, z.isReady par = b → z.judge par = { z with ready := b } := by
    rintro b rfl
    rfl
  have ready := isReady_eq z par
  refine ⟨fun h => marked _ ?_, fun g hg hf hn => marked _ ?_, fun g hg hn => marked _ ?_⟩
  · rcases h with h | h <;> simp [ready, h]
  · rw [ready, hg, hf]
    exact decide_eq_true hn
  · rw [ready, hg, Option.any_some, decide_eq_false hn, Bool.and_false]

/-- R114: a purge is due once the timer has run for the interval of the set point. -/
theorem purgeDue_cases (z : Zone) (now : Clock) :
    (z.timer = none → z.purgeDue now = false) ∧
    (∀ c, z.timer = some c →
      (z.purgeDue now = true ↔ (if 1500 ≤ z.setPoint then 30000 else 60000) ≤ (now - c).toNat)) := by
  refine ⟨fun h => ?_, fun c h => ?_⟩
  · rw [Zone.purgeDue, h]
  · rw [Zone.purgeDue, h]
    exact decide_eq_true_iff

/-- R113: the report, by the answer for the enabled zones. -/
theorem reportReady_cases (s : State) :
    ((∀ z ∈ s.chest.zones, z.enabled = true → z.ready = true) → reportReady s = { s with line.zonesReady := true }) ∧
    (∀ z ∈ s.chest.zones, z.enabled = true → z.ready = false → reportReady s = { s with line.zonesReady := false }) := by
  have reported : ∀ b, s.chest.zones.all (fun z => !z.enabled || z.ready) = b → reportReady s = { s with line.zonesReady := b } := by
    rintro b rfl
    rfl
  refine ⟨fun h => reported _ ((allReady_iff _).2 h), fun z hz he hr => reported _ ?_⟩
  refine Bool.eq_false_iff.2 fun all => Bool.false_ne_true ?_
  exact hr.symm.trans ((allReady_iff _).1 all z hz he)

/-- R124: the enable edits: 0 keeps, 1 enables, 2 disables, 3 toggles. -/
def enableMark (old : Bool) : Nat → Bool
  | 0 => old
  | 1 => true
  | 2 => false
  | _ => !old

/-- R124: the edit of zone `i` is the field of two bits at bit `2 i`. -/
theorem editEnable_eq {edits i e : Nat} (field : edits / 4 ^ i % 4 = e) (old : Bool) : editEnable edits i old = enableMark old e := by
  have small : e < 4 := field ▸ Nat.mod_lt _ (by decide)
  rw [editEnable, field]
  match e, small with
  | 0, _ => rfl
  | 1, _ => rfl
  | 2, _ => rfl
  | 3, _ => rfl

/-- Settles O35: the answer by the ranges, and each part of the edit and of the report. -/
theorem setZonesEditsEveryZone : Obligations.SetZonesEditsEveryZone := by
  refine ⟨?_, ?_, ?_, reportReady_cases, ?_⟩
  · intro e q a s x hd u f par sp edit v
    have edited : editZones a u = v := by
      have zones : edit = editZone a par u.line.state u.line.clock := by
        funext i z
        rfl
      have params : editParams a u.chest.par = par := rfl
      rw [editZones, params, ← zones]
    have answered : ∀ t, decideSetZones x.no a u = t → exec (.setZones e q a) s = .next (settle t) :=
      fun t ht => exec_of_dispatches hd rfl rfl ht
    obtain ⟨accepted, refused⟩ := decideSetZones_cases x.no a u
    rw [edited] at accepted
    exact ⟨fun pass => answered _ (accepted pass), fun r hr => answered _ (refused r hr)⟩
  · exact fun a => ⟨zoneValues_pass, fun r => zonesFail_badParam⟩
  · intro z par st now near
    obtain ⟨none, ready, far⟩ := judge_cases z par
    obtain ⟨stands, runs⟩ := purgeDue_cases z now
    exact ⟨none, ready, far, congrArg (fun g => Zone.judge { z with target := g } par) (targetIn_eq z par st), stands, runs⟩
  · intro e1 e2 e3 e4 old h1 h2 h3 h4 edits mark
    have marked : mark = enableMark old := by
      funext e
      rcases e with _ | _ | _ | _ <;> rfl
    rw [marked]
    exact ⟨editEnable_eq (by omega) old, editEnable_eq (by omega) old, editEnable_eq (by omega) old, editEnable_eq (by omega) old⟩

end Sys2Proof.Machine

/-! ### The ceiling and its publication (O37) -/

namespace Sys2Proof.Machine

/-- R122, R146: the roll's class on a READY other spindle. -/
theorem readyOther_class_iff {s : State} {c : Nat} : (s.readyOther.any (fun i => s.spindleClass i == some c)) = true ↔
    ∃ i j tag r, (i = .a ∧ j = .b ∨ i = .b ∧ j = .a) ∧ s.feeding = some i ∧ (s.spindle j).state = .ready ∧
      (s.spindle j).tag = some tag ∧ s.findRoll tag = some r ∧ r.cls = c := by
  have carries : ∀ j, (s.spindleClass j == some c) = true ↔
      ∃ tag r, (s.spindle j).tag = some tag ∧ s.findRoll tag = some r ∧ r.cls = c := by
    intro j
    rw [State.spindleClass, beq_iff_eq]
    cases (s.spindle j).tag <;> simp
  have other : ∀ j, s.readyOther = some j ↔
      ∃ i, (i = .a ∧ j = .b ∨ i = .b ∧ j = .a) ∧ s.feeding = some i ∧ (s.spindle j).state = .ready := by
    intro j
    rw [State.readyOther, State.otherSpindle]
    rcases s.feeding with _ | _ | _ <;> cases j <;> simp [oppositeSpindle]
  rw [Option.any_eq_true]
  simp only [other, carries]
  constructor
  · rintro ⟨j, ⟨i, opposite, feeds, ready⟩, tag, r, carried⟩
    exact ⟨i, j, tag, r, opposite, feeds, ready, carried⟩
  · rintro ⟨i, j, tag, r, opposite, feeds, ready, carried⟩
    exact ⟨j, ⟨i, opposite, feeds, ready⟩, tag, r, carried⟩

/-- R122: where a class present is found. -/
theorem classPresent_iff {s : State} {c : Nat} : s.classPresent c = true ↔
    (∃ y ∈ s.chest.cells, ∃ f, y.fill = some f ∧ f.cls = c) ∨ (∃ r, s.runningRoll = some r ∧ r.cls = c) ∨
      (s.wanted = true ∨ s.turret.seq = .pressing) ∧ s.readyOther.any (fun i => s.spindleClass i == some c) = true := by
  simp only [State.classPresent, Bool.or_eq_true, Bool.and_eq_true, List.any_eq_true, Option.any_eq_true, beq_iff_eq, or_assoc]

theorem mem_classesPresent {s : State} {c : Nat} : c ∈ s.classesPresent ↔ 1 ≤ c ∧ c ≤ 8 ∧ s.classPresent c = true := by
  simp only [State.classesPresent, List.mem_filter, List.mem_range, Bool.and_eq_true, decide_eq_true_eq]
  exact ⟨fun ⟨h9, h1, h⟩ => ⟨h1, Nat.le_of_lt_succ h9, h⟩, fun ⟨h1, h8, h⟩ => ⟨Nat.lt_succ_of_le h8, h1, h⟩⟩

/-- R122: the classes present are listed in class order, each once. -/
theorem classesPresent_sorted (s : State) : s.classesPresent.Pairwise (· < ·) := List.pairwise_lt_range.filter _

/-- What `leastOver` finds is a class of the list with its figure. -/
theorem leastOver_mem {f : Nat → Nat} {l : List Nat} {v d : Nat} (h : leastOver f l = some (v, d)) : d ∈ l ∧ v = f d := by
  induction l with
  | nil => cases h
  | cons c cs ih =>
    rw [leastOver] at h
    split at h
    next v' d' found =>
      split at h
      · cases h
        exact ⟨List.mem_cons_self, rfl⟩
      · cases h
        exact (ih found).imp_left (List.mem_cons_of_mem _)
    next =>
      cases h
      exact ⟨List.mem_cons_self, rfl⟩

/-- R122: over classes in order, the least figure, and the lowest class that gives it. -/
theorem leastOver_eq {f : Nat → Nat} {l : List Nat} {c : Nat} (sorted : l.Pairwise (· < ·)) (hc : c ∈ l)
    (least : ∀ d ∈ l, f c ≤ f d ∧ (f d = f c → c ≤ d)) : leastOver f l = some (f c, c) := by
  induction l with
  | nil => cases hc
  | cons x xs ih =>
    obtain ⟨first, rest⟩ := List.pairwise_cons.1 sorted
    rw [leastOver]
    rcases List.mem_cons.1 hc with rfl | later
    · split
      next v d found =>
        obtain ⟨hd, rfl⟩ := leastOver_mem found
        exact if_pos (least d (List.mem_cons_of_mem _ hd)).1
      next => rfl
    · rw [ih rest later fun d hd => least d (List.mem_cons_of_mem _ hd)]
      obtain ⟨below, lowest⟩ := least x List.mem_cons_self
      refine if_neg fun above => ?_
      exact Nat.not_le.2 (first c later) (lowest (Nat.le_antisymm above below))

/-- R122: the sum over the four zones. -/
theorem excessSum_four (theta : Nat) (z1 z2 z3 z4 : Zone) (k : Consts) :
    let heat := fun (z : Zone) (cells : Nat) => if z.faulted then 0 else cells * 50 * (z.reading - theta)
    excessSum theta [z1, z2, z3, z4] (zoneLengths k) = heat z1 k.zone1 + heat z2 k.zone2 + heat z3 k.zone3 + heat z4 k.zone4 := by
  simp only [excessSum, zoneLengths, Nat.mul_comm 50, Nat.add_zero, Nat.add_assoc]

/-- R122: the ceiling by the constants and the classes present. -/
theorem ceilingNow_cases (s : State) :
    (s.line.consts = none → s.ceilingNow = (240, none)) ∧
    (s.classesPresent = [] → s.ceilingNow = (240, none)) ∧
    (∀ k c, s.line.consts = some k → c ∈ s.classesPresent →
      (∀ d ∈ s.classesPresent, s.classCeiling c ≤ s.classCeiling d ∧ (s.classCeiling d = s.classCeiling c → c ≤ d)) →
        s.ceilingNow = (min (s.classCeiling c) 240, some c)) := by
  refine ⟨fun unset => if_pos (Option.isNone_iff_eq_none.2 unset), fun empty => ?_, fun k c hk hc least => ?_⟩
  · rw [State.ceilingNow, empty, leastOver, ite_self]
  · rw [State.ceilingNow, if_neg (by simp [hk]), leastOver_eq (classesPresent_sorted s) hc least]

/-- R132: HEAT by the line state and the ceiling. -/
theorem heatTest_cases (s : State) :
    (s.line.state = .run → s.line.ceiling < s.line.range.min → heatTest s = raiseReason .heat s) ∧
    (s.line.state ≠ .run → s.line.ceiling < s.line.range.min → heatTest s = s) ∧
    (s.line.range.min ≤ s.line.ceiling → s.line.ceiling < s.line.range.min + 2 → heatTest s = s) ∧
    (s.line.range.min + 2 ≤ s.line.ceiling → heatTest s = clearReason .heat s) := by
  unfold heatTest
  refine ⟨fun run low => if_pos ⟨run, low⟩, fun other low => ?_, fun atLeast short => ?_, fun clear => ?_⟩
  · rw [if_neg fun h => other h.1, if_neg (by omega)]
  · rw [if_neg fun h => Nat.not_lt.2 atLeast h.2, if_neg (Nat.not_le.2 short)]
  · rw [if_neg (by omega), if_pos clear]

/-- R123, R138: the ceiling and its class taken over, with the speed that follows. -/
def takeCeiling (s : State) : State :=
  recomputeSpeed { s with line.ceiling := s.ceilingNow.1, line.limiting := s.ceilingNow.2 }

theorem publish_eq (s : State) : publish s = testRun (heatTest (takeCeiling s)) := rfl

/-- R138: the speed driven, with the effective speed of the new ceiling. -/
theorem takeCeiling_eq (s : State) : takeCeiling s =
    let eff := min (min s.line.commanded s.line.range.max) (min s.ceilingNow.1 s.line.limit)
    { s with
      line.ceiling := s.ceilingNow.1, line.limiting := s.ceilingNow.2, line.effective := eff
      line.speedRef := match s.line.state with
        | .run => eff
        | .stopping => eff
        | .thread => s.line.range.min
        | _ => 0 } := rfl

/-- Settles O37: the classes present, the least ceiling over them, and the HEAT test on the ceiling taken over. -/
theorem ceilingAndHeat : Obligations.CeilingAndHeat := by
  refine ⟨?_, ?_, fun s => (ceilingNow_cases s).1, ?_⟩
  · intro s c
    rw [mem_classesPresent, classPresent_iff, readyOther_class_iff]
  · intro s k z1 z2 z3 z4 hk hz theta dose heat ceiling
    have figure : s.classCeiling = ceiling := by
      funext c
      rw [State.classCeiling, k_of_consts hk, hz, excessSum_four]
    obtain ⟨_, empty, least⟩ := ceilingNow_cases s
    rw [figure] at least
    exact ⟨empty, fun c => least k c hk⟩
  · intro s c lo eff t
    have taken : takeCeiling s = t := takeCeiling_eq s
    have published : publish s = testRun (heatTest t) := (publish_eq s).trans (congrArg _ (congrArg _ taken))
    obtain ⟨raised, other, between, cleared⟩ := heatTest_cases t
    rw [published]
    exact ⟨fun run low => congrArg testRun (raised run low), fun not low => congrArg testRun (other not low),
      fun least short => congrArg testRun (between least short), fun clear => congrArg testRun (cleared clear)⟩

end Sys2Proof.Machine

/-! ### The clock and the queue (O2, O60) -/

namespace Sys2Proof.Machine

/-- Settles O2: a step on an empty queue is a tick of one millisecond, which counts in two fields of the line alone. -/
theorem emptyQueuePassesAMillisecond : Obligations.EmptyQueuePassesAMillisecond := by
  intro s empty
  have ticks : step s = .next (tick 1 s) := by rw [step, empty]
  exact ⟨tick 1 s, ticks, rfl, rfl, rfl⟩

/-- Settles O60: the environment's milliseconds are counted as the command arrives, and what follows is `Good`. -/
theorem clockRunsThroughEveryCommand : Obligations.ClockRunsThroughEveryCommand := by
  intro c s notPower
  obtain ⟨t, completes, good⟩ := exec_good notPower s
  refine ⟨t, completes, good.clock, fun set => ?_, good.pending⟩
  rw [← Option.isSome_iff_ne_none] at set ⊢
  exact good.consts set

end Sys2Proof.Machine

/-! ### Entering a state, and the test for RUN (O41) -/

namespace Sys2Proof.Machine

theorem mayRun_iff (s : State) : s.mayRun = true ↔ s.line.state = .starting ∧ s.head.aligned = true ∧ s.runningRoll ≠ none ∧
    s.line.zonesReady = true ∧ s.line.range.min ≤ s.line.ceiling := by
  simp only [State.mayRun, Bool.and_eq_true, beq_iff_eq, decide_eq_true_iff, Option.isSome_iff_ne_none, and_assoc]

/-- R129: only a STARTING line tests for RUN. -/
theorem testRun_elsewhere {s : State} (h : s.line.state ≠ .starting) : testRun s = s :=
  if_neg fun may => h ((mayRun_iff s).1 may).1

@[simp] theorem lineTo_state (st : LineState) (s : State) : (lineTo st s).line.state = st := by
  rw [lineTo_line]
  rfl

/-- R129: entering a state other than STARTING makes no test for RUN. -/
theorem enterLine_elsewhere {st : LineState} (h : st ≠ .starting) (s : State) : enterLine st s = lineTo st s :=
  testRun_elsewhere (by rwa [lineTo_state])

section LineDecisions

variable {no : Nat} {s : State}

/-- R127: Energise by the line state and its three conditions. -/
theorem decideEnergise_cases :
    let ready := s.line.consts ≠ none ∧ s.line.estop = false ∧ s.line.drive = false
    (s.line.state = .off → ready → decideEnergise no s = conclude no done (lineTo .standby s)) ∧
    (s.line.state = .off → ¬ ready → decideEnergise no s = conclude no (refusal .wrongState (senseVals
      [natVal (flagNat s.line.consts.isNone), natVal (flagNat s.line.estop), natVal (flagNat s.line.drive)])) s) ∧
    (s.line.state ≠ .off → decideEnergise no s = conclude no s.wrongLine s) := by
  intro ready
  have unready : (s.line.consts.isNone = true ∨ s.line.estop = true ∨ s.line.drive = true) ↔ ¬ ready := by
    simp only [ready, Option.isNone_iff_eq_none, ← Bool.not_eq_true]
    tauto
  unfold decideEnergise
  refine ⟨fun off isReady => ?_, fun off notReady => ?_, fun other => if_pos other⟩
  · rw [if_neg (not_not.2 off), if_neg (fun h => unready.1 h isReady), enterLine_elsewhere (by decide)]
  · rw [if_neg (not_not.2 off), if_pos (unready.2 notReady)]

/-- R127, R128: De-energise and Thread leave STANDBY alone. -/
theorem fromStandby_cases :
    (s.line.state = .standby → decideDeEnergise no s = conclude no done (lineTo .off s) ∧
      decideThread no s = conclude no done (lineTo .thread s)) ∧
    (s.line.state ≠ .standby → decideDeEnergise no s = conclude no s.wrongLine s ∧ decideThread no s = conclude no s.wrongLine s) := by
  refine ⟨fun standby => ⟨?_, ?_⟩, fun other => ⟨if_pos other, if_pos other⟩⟩
  · rw [decideDeEnergise, if_neg (not_not.2 standby), enterLine_elsewhere (by decide)]
  · rw [decideThread, if_neg (not_not.2 standby), enterLine_elsewhere (by decide)]

/-- R129: Start by the grounds of its refusal in their order. -/
theorem decideStart_cases :
    let startable := s.line.state = .standby ∧ s.line.startWatch = none
    (¬ startable → decideStart no s = conclude no s.wrongLine s) ∧
    (startable → s.head.aligned = false →
      decideStart no s = conclude no (refusal .notAligned (senseVals [natVal s.head.offset])) s) ∧
    (startable → s.head.aligned = true → s.runningRoll = none →
      decideStart no s = conclude no (refusal .wrongState (senseVals [natVal s.line.state.code, 1])) s) ∧
    (startable → s.head.aligned = true → s.runningRoll ≠ none → decideStart no s =
      testRun (lineTo .starting (holdRunning no { s with line.startWatch := some no, line.deadline := some 0 }))) := by
  intro startable
  have refused : (s.line.state ≠ .standby ∨ s.line.startWatch.isSome = true) ↔ ¬ startable := by
    rw [Option.isSome_iff_ne_none, ← not_and_or]
  unfold decideStart
  refine ⟨fun h => if_pos (refused.2 h), fun h skew => ?_, fun h straight noRoll => ?_, fun h straight roll => ?_⟩
  · rw [if_neg (fun r => refused.1 r h), if_pos (by simp [skew])]
  · rw [if_neg (fun r => refused.1 r h), if_neg (by simp [straight]), if_pos (Option.isNone_iff_eq_none.2 noRoll)]
  · rw [if_neg (fun r => refused.1 r h), if_neg (by simp [straight]), if_neg (mt Option.isNone_iff_eq_none.1 roll)]
    rfl

end LineDecisions

/-- Settles O41: each request by the cases of its decision, and the test for RUN by its five conditions. -/
theorem energiseThreadAndStart : Obligations.EnergiseThreadAndStart := by
  refine ⟨fun e q s x => ⟨fun hd => ?_, fun hd => ?_⟩, fun e q s x => ⟨fun hd => ?_, fun hd => ?_⟩, fun s => ?_⟩
  · intro u ready
    obtain ⟨enters, lacks, other⟩ := decideEnergise_cases (no := x.no) (s := u)
    exact ⟨fun off h => exec_of_dispatches hd rfl rfl (enters off h), fun off h => exec_of_dispatches hd rfl rfl (lacks off h),
      fun h => exec_of_dispatches hd rfl rfl (other h)⟩
  · intro u
    obtain ⟨leaves, other⟩ := fromStandby_cases (no := x.no) (s := u)
    exact ⟨fun h => exec_of_dispatches hd rfl rfl (leaves h).1, fun h => exec_of_dispatches hd rfl rfl (other h).1⟩
  · intro u
    obtain ⟨leaves, other⟩ := fromStandby_cases (no := x.no) (s := u)
    exact ⟨fun h => exec_of_dispatches hd rfl rfl (leaves h).2, fun h => exec_of_dispatches hd rfl rfl (other h).2⟩
  · intro u startable
    obtain ⟨refused, skew, noRoll, starts⟩ := decideStart_cases (no := x.no) (s := u)
    exact ⟨fun h => exec_of_dispatches hd rfl rfl (refused h), fun h a => exec_of_dispatches hd rfl rfl (skew h a),
      fun h a r => exec_of_dispatches hd rfl rfl (noRoll h a r), fun h a r => exec_of_dispatches hd rfl rfl (starts h a r)⟩
  · intro may
    refine ⟨fun stays => if_neg (mt (mayRun_iff s).1 stays), ?_⟩
    rintro runs t rfl
    exact if_pos ((mayRun_iff s).2 runs)

end Sys2Proof.Machine

/-! ### Stop, Hold and Resume (O42, O43) -/

namespace Sys2Proof.Machine

/-- R134: Stop by the line state. -/
theorem decideStop_cases (no : Nat) (cut : Bool) (s : State) :
    (s.line.state = .run ∨ s.line.state = .hold ∨ s.line.state = .starting →
      decideStop no cut s = addStop no (abortStart (lineTo .stopping (cutIf cut s)))) ∧
    (s.line.state = .stopping → decideStop no cut s = addStop no (cutIf cut s)) ∧
    (s.line.state = .thread → s.head.align = none → decideStop no cut s = conclude no done (lineTo .standby s)) ∧
    (∀ a, s.line.state = .thread → s.head.align = some a → decideStop no cut s = conclude no done
      (lineTo .standby (finishAlign a (haltedAnswer s.line.cause) (misalign s)))) ∧
    (s.line.state = .off ∨ s.line.state = .standby ∨ s.line.state = .halt → decideStop no cut s = conclude no s.wrongLine s) := by
  unfold decideStop
  refine ⟨?_, fun h => by rw [h], fun h idle => ?_, fun a h trials => ?_, ?_⟩
  · rintro (h | h | h) <;> simp only [h, enterLine_elsewhere (st := .stopping) (by decide)]
  · simp only [h, idle, enterLine_elsewhere (st := .standby) (by decide)]
  · simp only [h, trials, enterLine_elsewhere (st := .standby) (by decide)]
  · rintro (h | h | h) <;> rw [h]

/-- Settles O42: the cases of the decision; how the Start ends and the Stop is held stand in `abortStart` and `addStop`. -/
theorem stopByLineState : Obligations.StopByLineState := by
  intro e q cut s x hd u watch c v
  obtain ⟨stops, stopping, thread, aligning, refused⟩ := decideStop_cases x.no cut u
  exact ⟨fun h => exec_of_dispatches hd rfl rfl (stops h), fun h => exec_of_dispatches hd rfl rfl (stopping h),
    fun h idle => exec_of_dispatches hd rfl rfl (thread h idle), fun a h trials => exec_of_dispatches hd rfl rfl (aligning a h trials),
    fun h => exec_of_dispatches hd rfl rfl (refused h)⟩

theorem put_has (h : Holds) (r : HoldReason) : (h.put true r).has r = true := by cases r <;> rfl

/-- R131: a hold reason raised, by the line state. -/
theorem raiseReason_cases (r : HoldReason) (s : State) :
    let t := { s with line.holds := s.line.holds.put true r }
    (s.line.state = .starting ∨ s.line.state = .run → raiseReason r s = lineTo .hold t) ∧
    (s.line.state = .hold ∨ s.line.state = .thread ∨ s.line.state = .stopping → raiseReason r s = t) ∧
    (s.line.state = .off ∨ s.line.state = .standby ∨ s.line.state = .halt → raiseReason r s = s) := by
  intro t
  unfold raiseReason
  refine ⟨?_, ?_, ?_⟩
  · rintro (h | h) <;> rw [h]
  · rintro (h | h | h) <;> rw [h]
  · rintro (h | h | h) <;> rw [h]

/-- R131: a hold reason cleared: one that does not stand, the last of a line in HOLD, and any other. -/
theorem clearReason_cases (r : HoldReason) (s : State) :
    let left := s.line.holds.put false r
    (s.line.holds.has r = false → clearReason r s = s) ∧
    (s.line.holds.has r = true → s.line.state = .hold → left = Holds.empty →
      clearReason r s = testRun (lineTo .starting { s with line.holds := left })) ∧
    (s.line.holds.has r = true → ¬ (s.line.state = .hold ∧ left = Holds.empty) →
      clearReason r s = { s with line.holds := left }) := by
  intro left
  unfold clearReason
  refine ⟨fun absent => ?_, fun stands hold empties => ?_, fun stands other => ?_⟩
  · exact if_neg (by rw [absent]; decide)
  · exact (if_pos stands).trans (if_pos ⟨hold, empties⟩)
  · exact (if_pos stands).trans (if_neg other)

/-- R133: Hold by the line state. -/
theorem decideHold_cases (no : Nat) (s : State) :
    (s.line.state = .starting ∨ s.line.state = .run ∨ s.line.state = .hold →
      decideHold no s = conclude no done (raiseReason .operator s)) ∧
    (s.line.state ≠ .starting → s.line.state ≠ .run → s.line.state ≠ .hold → decideHold no s = conclude no s.wrongLine s) := by
  unfold decideHold
  refine ⟨?_, fun h1 h2 h3 => ?_⟩
  · rintro (h | h | h) <;> rw [h]
  · split
    next h => exact absurd h h1
    next h => exact absurd h h2
    next h => exact absurd h h3
    next => rfl

/-- A completion leaves the line's state and its hold reasons. -/
theorem conclude_line (no : Nat) (a : Answer) (s : State) :
    (conclude no a s).line.state = s.line.state ∧ (conclude no a s).line.holds = s.line.holds := by
  obtain ⟨mem, port, e | e⟩ := conclude_postsOnly no a s <;> rw [e] <;> exact ⟨rfl, rfl⟩

theorem holds_eq_iff (h l : Holds) : h = l ↔ h.operator = l.operator ∧ h.heat = l.heat ∧ h.noOrder = l.noOrder ∧
    h.panelsFull = l.panelsFull ∧ h.mapFull = l.mapFull := by
  obtain ⟨_, _, _, _, _⟩ := h
  obtain ⟨_, _, _, _, _⟩ := l
  exact Eq.to_iff (Holds.mk.injEq ..)

/-- R133: Resume by what stands in the set. -/
theorem decideResume_cases (no : Nat) (s : State) :
    let v := conclude no done s
    let t := { v with line.holds := { s.line.holds with operator := false } }
    let last := s.line.state = .hold ∧ s.line.holds = { Holds.empty with operator := true }
    (s.line.holds.operator = false → decideResume no s =
      conclude no (refusal .wrongState (senseVals [natVal s.line.state.code, natVal s.line.holds.bits])) s) ∧
    (s.line.holds.operator = true → last → decideResume no s = testRun (lineTo .starting t)) ∧
    (s.line.holds.operator = true → ¬ last → decideResume no s = t) := by
  intro v t last
  obtain ⟨state, holds⟩ := conclude_line no done s
  have resumes : s.line.holds.operator = true → decideResume no s = clearReason .operator v := fun stands => if_pos stands
  obtain ⟨_, empties, leaves⟩ := clearReason_cases .operator v
  have left : v.line.holds.put false .operator = { s.line.holds with operator := false } := by rw [holds]; rfl
  have stood : v.line.holds.has .operator = s.line.holds.operator := by rw [holds]; rfl
  have alone : s.line.holds.operator = true →
      ({ s.line.holds with operator := false } = Holds.empty ↔ s.line.holds = { Holds.empty with operator := true }) := by
    intro stands
    simp only [holds_eq_iff, Holds.empty, stands, true_and]
  rw [left, stood, state] at empties leaves
  refine ⟨fun absent => if_neg (by rw [absent]; decide), fun stands h => ?_, fun stands h => ?_⟩
  · exact (resumes stands).trans (empties stands h.1 ((alone stands).2 h.2))
  · exact (resumes stands).trans (leaves stands (fun ⟨hold, e⟩ => h ⟨hold, (alone stands).1 e⟩))

/-- Settles O43: the requests by their decisions, the reasons by what raises and clears them, the reports through the reason they clear. -/
theorem holdAndResume : Obligations.HoldAndResume := by
  refine ⟨fun e q s x => ⟨fun hd => ?_, fun hd => ?_⟩, fun r s => ?_, clearReason_cases, fun s => ?_⟩
  · intro u t
    obtain ⟨raises, refused⟩ := decideHold_cases x.no u
    obtain ⟨enters, joins, _⟩ := raiseReason_cases .operator u
    refine ⟨fun h => exec_of_dispatches hd rfl rfl ?_, fun h => exec_of_dispatches hd rfl rfl ?_,
      fun h1 h2 h3 => exec_of_dispatches hd rfl rfl (refused h1 h2 h3)⟩
    · exact (raises (h.imp id .inl)).trans (congrArg _ (enters h))
    · exact (raises (.inr (.inr h))).trans (congrArg _ (joins (.inl h)))
  · intro u v t
    obtain ⟨refused, last, other⟩ := decideResume_cases x.no u
    exact ⟨fun h => exec_of_dispatches hd rfl rfl (refused h), fun h hold only => exec_of_dispatches hd rfl rfl (last h ⟨hold, only⟩),
      fun h more => exec_of_dispatches hd rfl rfl (other h more)⟩
  · intro t
    obtain ⟨enters, joins, nothing⟩ := raiseReason_cases r s
    refine ⟨fun h => ⟨enters h, ?_, ?_⟩, joins, nothing⟩
    · rw [enters h, lineTo_state]
    · rw [enters h, lineTo_line]
      exact put_has _ r
  · intro w met
    refine ⟨rfl, fun h => if_pos h, fun h => if_neg h, fun h => if_pos (Option.isSome_iff_ne_none.2 h), fun h => ?_⟩
    exact if_neg (by rw [h]; decide)

end Sys2Proof.Machine

/-! ### Set Speed and Set Range (O45) -/

namespace Sys2Proof.Machine

/-- R137: the clamp written as its three cases. -/
theorem clampSpeed_eq (r : SpeedRange) (v : Nat) :
    clampSpeed r v = if v < r.min then r.min else if r.max < v then r.max else v := by
  have ordered : r.min ≤ r.max := by cases r <;> decide
  rw [clampSpeed]
  split
  · omega
  · split <;> omega

/-- R138: the effective speed and the speed reference as they are driven. -/
theorem recomputeSpeed_eq (s : State) : recomputeSpeed s =
    let eff := min (min s.line.commanded s.line.range.max) (min s.line.ceiling s.line.limit)
    { s with
      line.effective := eff
      line.speedRef := match s.line.state with
        | .run => eff
        | .stopping => eff
        | .thread => s.line.range.min
        | _ => 0 } := by
  let eff := min (min s.line.commanded s.line.range.max) (min s.line.ceiling s.line.limit)
  exact congrArg (fun v => { s with line.effective := eff, line.speedRef := v }) (Line.reference_eq { s.line with effective := eff })

/-- R137: Set Speed, over the clamped speed and the state that drives it. -/
theorem decideSetSpeed_eq {no c : Nat} {speed : U16} {s t : State} (hc : clampSpeed s.line.range speed.toNat = c)
    (ht : recomputeSpeed { s with line.commanded := c } = t) : decideSetSpeed no speed s =
      conclude no { doneDetail (if c = speed.toNat then 1 else 2) with
        params := [(0x02, [b8 t.line.commanded, b8 t.line.effective])] } t := by
  subst hc ht
  rfl

/-- R137: Set Range outside OFF and STANDBY, for a code of neither range, and for the range in force and the other. -/
theorem decideSetRange_cases (no : Nat) (code : U8) (s : State) :
    (s.line.state ≠ .off → s.line.state ≠ .standby → decideSetRange no code s = conclude no s.wrongLine s) ∧
    (s.line.state = .off ∨ s.line.state = .standby →
      (2 ≤ code.toNat → decideSetRange no code s = conclude no (badField (fieldId 0 0x00) [natVal code.toNat]) s) ∧
      (∀ r, (code = 0 ∧ r = .low ∨ code = 1 ∧ r = .high) →
        (r = s.line.range → decideSetRange no code s = conclude no (doneDetail 1) s) ∧
        (r ≠ s.line.range → decideSetRange no code s =
          conclude no { doneDetail 2 with params := [(0x02, [b8 (changeRange r s).line.commanded])] } (changeRange r s)))) := by
  refine ⟨fun off standby => if_pos ⟨off, standby⟩, fun allowed => ?_⟩
  have decided : decideSetRange no code s = match rangeOfCode code.toNat with
      | none => conclude no (badField (fieldId 0 0x00) [natVal code.toNat]) s
      | some r => if r = s.line.range then conclude no (doneDetail 1) s
        else conclude no { doneDetail 2 with params := [(0x02, [b8 (changeRange r s).line.commanded])] } (changeRange r s) :=
    if_neg fun h => allowed.elim h.1 h.2
  rw [decided]
  refine ⟨fun h => ?_, fun r hr => ?_⟩
  · have names : rangeOfCode code.toNat = none := by rw [rangeOfCode, if_neg (by omega), if_neg (by omega)]
    rw [names]
  · have names : rangeOfCode code.toNat = some r := by rcases hr with ⟨rfl, rfl⟩ | ⟨rfl, rfl⟩ <;> rfl
    rw [names]
    exact ⟨fun same => if_pos same, fun other => if_neg other⟩

/-- R84, R137, R138: a change of range in OFF and STANDBY, where no speed is driven. -/
theorem changeRange_eq {s : State} (h : s.line.state = .off ∨ s.line.state = .standby) (r : SpeedRange) : changeRange r s =
    let c := if s.line.commanded < r.min then r.min else if r.max < s.line.commanded then r.max else s.line.commanded
    { s with
      line.range := r, line.commanded := c, line.limit := r.max, head.aligned := false, line.speedRef := 0
      line.effective := min (min c r.max) (min s.line.ceiling r.max) } := by
  rw [changeRange, misalign, recomputeSpeed_eq, clampSpeed_eq]
  rcases h with h | h <;> simp only [h]

/-- Settles O45: the clamp by its cases, and the speeds as `recomputeSpeed_eq` and `changeRange_eq` give them. -/
theorem speedAndRange : Obligations.SpeedAndRange := by
  refine ⟨fun e q v s x hd => ?_, fun e q code s x hd => ?_⟩
  · intro u r c eff t
    have clamped : clampSpeed r v.toNat = c := clampSpeed_eq r v.toNat
    have driven : recomputeSpeed { u with line.commanded := c } = t := recomputeSpeed_eq _
    exact exec_of_dispatches hd rfl rfl (decideSetSpeed_eq clamped driven)
  · intro u
    obtain ⟨refused, allowed⟩ := decideSetRange_cases x.no code u
    refine ⟨fun off standby => exec_of_dispatches hd rfl rfl (refused off standby), fun h => ?_⟩
    obtain ⟨neither, named⟩ := allowed h
    refine ⟨fun big => ⟨_, rfl, exec_of_dispatches hd rfl rfl (neither big)⟩, fun r hr => ?_⟩
    obtain ⟨same, other⟩ := named r hr
    refine ⟨fun inForce => exec_of_dispatches hd rfl rfl (same inForce), fun differs => ?_⟩
    intro c t
    have changed : changeRange r u = t := changeRange_eq h r
    rw [changed] at other
    exact exec_of_dispatches hd rfl rfl (other differs)

end Sys2Proof.Machine

/-! ### The line constants (O46) -/

namespace Sys2Proof.Machine

theorem constRange_eq_none {row offset v lo hi : Nat} : constRange row offset v lo hi = none ↔ lo ≤ v ∧ v ≤ hi := by
  rw [constRange]
  split
  next h => exact iff_of_true rfl h
  next h => exact iff_of_false (Option.some_ne_none _) h

/-- R143: a constant's range, and that of the next one of the same rule. -/
theorem constsFirstFail_eq_none (k : Consts) (a : Nat) : constsFirstFail k a = none ↔
    (2000 ≤ k.p ∧ k.p ≤ 20000) ∧ (500 ≤ k.q ∧ k.q ≤ 10000 ∧ k.q ≤ k.p - 1) ∧ (1000 ≤ k.dEntry ∧ k.dEntry ≤ 8000) ∧
    ((∀ z ∈ [k.zone1, k.zone2, k.zone3, k.zone4], 4 ≤ z ∧ z ≤ 52) ∧ k.zone1 + k.zone2 + k.zone3 + k.zone4 = 64) ∧
    (20000 ≤ k.cap ∧ k.cap ≤ 200000 ∧ a ≤ k.cap) ∧ (k.cap / 4 ≤ k.reserve ∧ k.reserve ≤ k.cap) ∧
    (50000 ≤ k.rs ∧ k.rs ≤ 1000000) ∧ (300 ≤ k.overlap ∧ k.overlap ≤ 1000) ∧ (500 ≤ k.guardLen ∧ k.guardLen ≤ 2000) ∧
    k.gap ≤ 5000 ∧ k.overtravel ≤ 30 ∧ k.window ≤ 3 ∧ k.missTolerance ≤ 15 ∧
    (1 ≤ k.startTimeout ∧ k.startTimeout ≤ 30) ∧ (2 ≤ k.spliceTimeout ∧ k.spliceTimeout ≤ 60) := by
  have store : (if k.cap < a then some (⟨5, 0x0C, [(k.cap : Int), (a : Int)]⟩ : ConstFail) else none) = none ↔ a ≤ k.cap := by
    split
    next h => exact iff_of_false (Option.some_ne_none _) (Nat.not_le.2 h)
    next h => exact iff_of_true rfl (Nat.not_lt.1 h)
  simp only [constsFirstFail, List.findSome?_eq_none_iff, List.forall_mem_cons, id_eq, constRange_eq_none, store]
  simp only [List.not_mem_nil, false_imp_iff, implies_true, and_true, Nat.le_min, Nat.zero_le, true_and]
  constructor
  · rintro ⟨p, q, d, z1, z2, z3, z4, sum, cap, store, rest⟩
    exact ⟨p, q, d, ⟨⟨z1, z2, z3, z4⟩, Nat.le_antisymm sum.2 sum.1⟩, ⟨cap.1, cap.2, store⟩, rest⟩
  · rintro ⟨p, q, d, ⟨⟨z1, z2, z3, z4⟩, sum⟩, ⟨cap, cap', store⟩, rest⟩
    exact ⟨p, q, d, z1, z2, z3, z4, ⟨sum.ge, sum.le⟩, ⟨cap, cap'⟩, store, rest⟩

/-- 11_formats.md: the widths of the constants' fields. -/
def constsFit (k : Consts) : Prop :=
  (k.p < 65536 ∧ k.q < 65536 ∧ k.dEntry < 65536 ∧ k.overlap < 65536 ∧ k.guardLen < 65536 ∧ k.gap < 65536) ∧
  (k.zone1 < 256 ∧ k.zone2 < 256 ∧ k.zone3 < 256 ∧ k.zone4 < 256) ∧
  (k.cap < 4294967296 ∧ k.reserve < 4294967296 ∧ k.rs < 4294967296) ∧
  (k.overtravel < 256 ∧ k.window < 256 ∧ k.missTolerance < 256 ∧ k.startTimeout < 256 ∧ k.spliceTimeout < 256)

theorem constsBytes_length (k : Consts) : (constsBytes k).length = 36 := rfl

/-- R143: constants that pass their checks fit their fields. -/
theorem fits_of_pass {k : Consts} {a : Nat} (h : constsFirstFail k a = none) : constsFit k := by
  rw [constsFirstFail_eq_none] at h
  simp only [List.forall_mem_cons] at h
  unfold constsFit
  omega

theorem bitSet_flag (b : Bool) : bitSet (b8 (flagNat b)).toNat 0 = b := by cases b <;> rfl

/-- 11_formats.md: constants that fit their fields are read back from their bytes. -/
theorem parseConsts_constsBytes {k : Consts} (h : constsFit k) : parseConsts (constsBytes k) = k := by
  obtain ⟨⟨p, q, d, overlap, guardLen, gap⟩, ⟨z1, z2, z3, z4⟩, ⟨cap, reserve, rs⟩, overtravel, window, miss, start, splice⟩ := h
  simp only [parseConsts, constsBytes, constsFields, le, leBytes_two, leBytes_four, List.flatten_cons, List.cons_append,
    List.nil_append, byteAt_cons_zero, byteAt_cons_succ, u16At_cons_succ, u32At_cons_succ, u16At_le, u32At_le, bitSet_flag]
  simp only [b8, BitVec.toNat_ofNat, Nat.mod_eq_of_lt, *]

/-- R143: Set Line Constants by its grounds of refusal in their order. -/
theorem decideSetConsts_cases (no : Nat) (q : Req) (s : State) :
    (s.line.state ≠ .off → decideSetConsts no q s = conclude no s.wrongLine s) ∧
    (∀ a, s.line.state = .off → s.head.arrival = some a → decideSetConsts no q s =
      conclude no (refusal .wrongState (senseVals (posVals a.pos ++ posVals s.head.f))) s) ∧
    (s.line.state = .off → s.head.arrival = none → dataTotal q.data ≠ 36 → decideSetConsts no q s =
      conclude no (refusal .segmentList (senseField lenField [natVal (dataTotal q.data), 36])) s) ∧
    (s.line.state = .off → s.head.arrival = none → dataTotal q.data = 36 →
      (s.load (dataAddrs q.data 36) = none → decideSetConsts no q s = conclude no (refusal .busFault Sense.none) s) ∧
      (∀ bs, s.load (dataAddrs q.data 36) = some bs →
        (∀ f, constsFirstFail (parseConsts bs) s.line.store = some f → decideSetConsts no q s = conclude no (constAnswer f) s) ∧
        (constsFirstFail (parseConsts bs) s.line.store = none →
          decideSetConsts no q s = conclude no done (applyConsts (parseConsts bs) s)))) := by
  refine ⟨fun other => if_pos other, fun a off pending => ?_, fun off free short => ?_,
    fun off free whole => ⟨fun fault => ?_, fun bs reads => ⟨fun f fails => ?_, fun pass => ?_⟩⟩⟩ <;>
    rw [decideSetConsts, if_neg (not_not.2 off)]
  · rw [pending]
  · rw [free]
    exact if_pos short
  all_goals rw [free]; refine (if_neg (not_not.2 whole)).trans ?_
  · rw [Config.constsBytes, fault]
  · rw [Config.constsBytes, reads]
    simp only [fails]
  · rw [Config.constsBytes, reads]
    simp only [pass]

/-- Settles O46: the request by the cases of its decision, the checks by the table, and the layout field by field. -/
theorem setLineConstantsAppliesWhole : Obligations.SetLineConstantsAppliesWhole := by
  refine ⟨fun e q s x hd => ?_, constsFirstFail_eq_none,
    fun k h => ⟨constsBytes_length k, parseConsts_constsBytes (fits_of_pass h)⟩, fun k s => rfl⟩
  intro u
  obtain ⟨other, pending, short, whole⟩ := decideSetConsts_cases x.no q u
  refine ⟨fun h => exec_of_dispatches hd rfl rfl (other h), fun a off h => exec_of_dispatches hd rfl rfl (pending a off h),
    fun off free h => exec_of_dispatches hd rfl rfl (short off free h), fun off free h => ?_⟩
  obtain ⟨fault, reads⟩ := whole off free h
  refine ⟨fun none => exec_of_dispatches hd rfl rfl (fault none), fun bs some => ?_⟩
  obtain ⟨fails, pass⟩ := reads bs some
  exact ⟨fun f hf => exec_of_dispatches hd rfl rfl (fails f hf), fun hp => exec_of_dispatches hd rfl rfl (pass hp)⟩

end Sys2Proof.Machine

/-! ### The deadlines of the line clock (O47) -/

namespace Sys2Proof.Machine

/-- An event by what its operation makes of the state in which the command arrives. -/
theorem event_of_eq {f : State → State} {e : Env} {s t : State} (h : f (arrive e s) = t) : event e f s = .next (settle t) := by
  rw [event, h]

/-- R142: the feed-stall deadline by its time. -/
theorem stallExpiry_cases (s : State) :
    (∀ c, s.line.stall = some c → 10000 ≤ (s.line.clock - c).toNat → stallExpiry s = raiseHalt .feedStall s) ∧
    (∀ c, s.line.stall = some c → (s.line.clock - c).toNat < 10000 → stallExpiry s = s) ∧
    (s.line.stall = none → stallExpiry s = s) := by
  have due : ∀ c, s.line.stall = some c → (s.stallDue = true ↔ 10000 ≤ (s.line.clock - c).toNat) := by
    intro c set
    rw [State.stallDue, set]
    exact decide_eq_true_iff
  refine ⟨fun c set late => if_pos ((due c set).2 late), fun c set early => if_neg fun h => ?_, fun none => if_neg ?_⟩
  · exact Nat.not_le.2 early ((due c set).1 h)
  · rw [State.stallDue, none]
    exact Bool.false_ne_true

/-- R129: the start deadline is reached in STARTING alone, when the time spent is the timeout. -/
theorem startDue_iff {s : State} {k : Consts} (hk : s.line.consts = some k) :
    s.startDue = true ↔ s.line.state = .starting ∧ ∃ d, s.line.deadline = some d ∧ 60000 * k.startTimeout ≤ d := by
  simp only [State.startDue, k_of_consts hk, Bool.and_eq_true, beq_iff_eq, Option.any_eq_true, decide_eq_true_iff]

/-- R129: the start deadline taken. -/
theorem startExpiry_cases {s : State} {k : Consts} (hk : s.line.consts = some k) :
    let t := lineTo .standby s
    (∀ d, s.line.state = .starting → s.line.deadline = some d → 60000 * k.startTimeout ≤ d →
      startExpiry s = concludeWatch t.line.startWatch (refusal .heatTimeout (senseVals [natVal s.unmet, natVal s.line.ceiling]))
        { t with line.startWatch := none }) ∧
    (s.line.state ≠ .starting ∨ s.line.deadline = none ∨ (∃ d, s.line.deadline = some d ∧ d < 60000 * k.startTimeout) →
      startExpiry s = s) := by
  intro t
  refine ⟨fun d starting armed late => ?_, fun early => if_neg fun h => ?_⟩
  · rw [startExpiry, if_pos ((startDue_iff hk).2 ⟨starting, d, armed, late⟩), enterLine_elsewhere (by decide)]
  · obtain ⟨starting, d, armed, late⟩ := (startDue_iff hk).1 h
    rcases early with other | off | ⟨d', armed', early⟩
    · exact other starting
    · rw [armed] at off
      cases off
    · rw [armed] at armed'
      cases armed'
      omega

/-- R114: the end of a purge by the timer, the drain and the time. -/
theorem drainOver_cases (z : Zone) (now : Clock) :
    (z.timer = none → z.drainOver now = false) ∧
    (∀ c, z.timer = some c → (z.drainOver now = true ↔ z.purging = true ∧ 2000 ≤ (now - c).toNat)) := by
  refine ⟨fun h => ?_, fun c h => ?_⟩
  · rw [Zone.drainOver, h]
  · rw [Zone.drainOver, h]
    simp only [Bool.and_eq_true, decide_eq_true_iff]
    rfl

/-- R129: the conditions of RUN unmet. -/
theorem unmet_eq (s : State) : s.unmet = (if s.head.aligned = true then 0 else 1) + (if s.runningRoll = none then 2 else 0) +
    (if s.line.zonesReady = true then 0 else 4) + (if s.line.range.min ≤ s.line.ceiling then 0 else 8) := by
  have flag : ∀ (b : Bool) (i : Nat), bit (!b) i = if b = true then 0 else 2 ^ i := by
    intro b i
    cases b <;> rfl
  have least : decide (s.line.ceiling < s.line.range.min) = !decide (s.line.range.min ≤ s.line.ceiling) := by
    rw [← decide_not]
    exact decide_eq_decide.2 Nat.not_le.symm
  have roll : s.runningRoll.isNone = !s.runningRoll.isSome := by cases s.runningRoll <;> rfl
  have absent : (if s.runningRoll.isSome = true then 0 else 2 ^ 1) = if s.runningRoll = none then 2 else 0 := by
    cases s.runningRoll <;> rfl
  simp only [State.unmet, least, roll, flag, absent, decide_eq_true_iff]
  rfl

/-- Settles O47: each deadline by its time; a purge by what `purgeDue_cases` and `drainOver_cases` say of its zone. -/
theorem deadlinesOfTheClock : Obligations.DeadlinesOfTheClock := by
  refine ⟨fun e s => ?_, fun e s k => ?_, fun e z s => ?_, unmet_eq⟩
  · intro u
    obtain ⟨late, early, none⟩ := stallExpiry_cases u
    exact ⟨fun c set h => event_of_eq (late c set h), fun c set h => event_of_eq (early c set h), fun h => event_of_eq (none h)⟩
  · intro u t hk
    obtain ⟨late, early⟩ := startExpiry_cases (s := u) hk
    exact ⟨fun d starting armed h => event_of_eq (late d starting armed h), fun h => event_of_eq (early h)⟩
  · intro u y interval
    obtain ⟨stands, due⟩ := purgeDue_cases y u.line.clock
    obtain ⟨shut, ended⟩ := drainOver_cases y u.line.clock
    refine ⟨fun c set late => event_of_eq (if_pos ((due c set).2 late)), fun c set early => event_of_eq (if_neg fun h => ?_),
      fun none => event_of_eq (if_neg ?_), fun c set opened late => event_of_eq (if_pos ((ended c set).2 ⟨opened, late⟩)),
      fun c set early => event_of_eq (if_neg fun h => ?_), fun none => event_of_eq (if_neg ?_)⟩
    · exact Nat.not_le.2 early ((due c set).1 h)
    · rw [stands none]
      exact Bool.false_ne_true
    · obtain ⟨opened, late⟩ := (ended c set).1 h
      rcases early with closed | early
      · exact Bool.false_ne_true (closed.symm.trans opened)
      · exact Nat.not_le.2 early late
    · rw [shut none]
      exact Bool.false_ne_true

end Sys2Proof.Machine

/-! ### What a line in HALT keeps (O44) -/

namespace Sys2Proof.Machine

/-- What an operation on a line in HALT leaves: the line's state, its halt cause and set, watches that are empty, and the head but for what
a call on it, a report of places and a ring fault (R172) set. -/
structure InHalt (s t : State) : Prop where
  line : t.line.state = s.line.state
  cause : t.line.cause = s.line.cause
  halts : t.line.halts = s.line.halts
  start : s.line.startWatch = none → t.line.startWatch = none
  stops : s.line.stopWatches = [] → t.line.stopWatches = []
  head : { t.head with align := s.head.align, again := s.head.again, mapNeed := s.head.mapNeed } = s.head

/-- Everything `InHalt` speaks of. -/
def State.haltView (s : State) :=
  ((s.line.state, s.line.cause, s.line.halts, s.line.startWatch, s.line.stopWatches),
   { s.head with align := none, again := false, mapNeed := 0 })

/-- An operation that leaves all of it once the line is in HALT. -/
def HaltKeeps (s t : State) : Prop := s.line.state = .halt → InHalt s t

theorem InHalt.of_view {s t : State} (h : t.haltView = s.haltView) : InHalt s t := by
  simp only [State.haltView, Prod.mk.injEq] at h
  obtain ⟨⟨line, cause, halts, start, stops⟩, head⟩ := h
  refine ⟨line, cause, halts, fun e => start.trans e, fun e => stops.trans e, ?_⟩
  calc _ = { ({ t.head with align := none, again := false, mapNeed := 0 } : Head) with
          align := s.head.align, again := s.head.again, mapNeed := s.head.mapNeed } := rfl
    _ = s.head := by rw [head]

theorem InHalt.trans {s t u : State} (a : InHalt s t) (b : InHalt t u) : InHalt s u := by
  refine ⟨b.line.trans a.line, b.cause.trans a.cause, b.halts.trans a.halts, fun e => b.start (a.start e),
    fun e => b.stops (a.stops e), ?_⟩
  calc _ = { ({ u.head with align := t.head.align, again := t.head.again, mapNeed := t.head.mapNeed } : Head) with
          align := s.head.align, again := s.head.again, mapNeed := s.head.mapNeed } := rfl
    _ = s.head := by rw [b.head, a.head]

/-- A field of the head that none of these set. -/
theorem InHalt.kept {s t : State} {α : Type} (h : InHalt s t) (field : Head → α)
    (hf : ∀ (hd : Head) a b c, field { hd with align := a, again := b, mapNeed := c } = field hd := by exact fun _ _ _ _ => rfl) :
    field t.head = field s.head := by rw [← hf t.head, h.head]

/-- A change made to the head on both sides that passes by these. -/
theorem InHalt.mapHead {s t : State} (h : InHalt s t) (g : Head → Head)
    (hg : ∀ (hd : Head) a b c, g { hd with align := a, again := b, mapNeed := c } =
      { g hd with align := a, again := b, mapNeed := c } := by exact fun _ _ _ _ => rfl) :
    InHalt { s with head := g s.head } { t with head := g t.head } := by
  have set := hg t.head s.head.align s.head.again s.head.mapNeed
  rw [h.head] at set
  refine ⟨h.line, h.cause, h.halts, h.start, h.stops, ?_⟩
  rw [set]

namespace HaltKeeps

variable {s t u : State}

theorem of_view (h : t.haltView = s.haltView) : HaltKeeps s t := fun _ => .of_view h

theorem refl (s : State) : HaltKeeps s s := of_view rfl

theorem trans (a : HaltKeeps s t) (b : HaltKeeps t u) : HaltKeeps s u :=
  fun h => (a h).trans (b ((a h).line.trans h))

/-- An operation on a state that differs in nothing of it. -/
theorem after (b : HaltKeeps t u) (h : t.haltView = s.haltView := by rfl) : HaltKeeps s u := (of_view h).trans b

theorem ite {p : Prop} [Decidable p] (a : HaltKeeps s t) (b : HaltKeeps s u) : HaltKeeps s (if p then t else u) := by
  split <;> assumption

theorem foldl {α : Type} {f : State → α → State} (hf : ∀ s a, HaltKeeps s (f s a)) (l : List α) (s : State) :
    HaltKeeps s (l.foldl f s) := by
  induction l generalizing s with
  | nil => exact refl s
  | cons a l ih => exact (hf s a).trans (ih _)

end HaltKeeps

theorem PostsOnly.haltKeeps {s t : State} (h : PostsOnly s t) : HaltKeeps s t := by
  obtain ⟨mem, port, rfl | rfl⟩ := h
  · exact .of_view rfl
  · exact fun _ => ⟨rfl, rfl, rfl, fun _ => rfl, fun _ => rfl, rfl⟩

/-! #### The line's part -/

theorem testRun_haltKeeps (s : State) : HaltKeeps s (testRun s) := fun h => by
  rw [testRun_elsewhere (by rw [h]; decide)]
  exact .of_view rfl

theorem clearReason_haltKeeps (r : HoldReason) (s : State) : HaltKeeps s (clearReason r s) := fun h => by
  obtain ⟨absent, _, leaves⟩ := clearReason_cases r s
  cases stands : s.line.holds.has r
  · rw [absent stands]
    exact .of_view rfl
  · rw [leaves stands fun e => by rw [h] at e; cases e.1]
    exact .of_view rfl

theorem publish_haltKeeps (s : State) : HaltKeeps s (publish s) := by
  have heat : ∀ t : State, HaltKeeps t (heatTest t) := by
    intro t
    unfold heatTest
    refine .ite (fun h => ?_) (.ite (clearReason_haltKeeps _ t) (.refl t))
    rw [(raiseReason_cases .heat t).2.2 (.inr (.inr h))]
    exact .of_view rfl
  exact .after ((heat (takeCeiling s)).trans (testRun_haltKeeps _))

theorem triggerTest_haltKeeps (s : State) : HaltKeeps s (triggerTest s) := by
  unfold triggerTest
  split <;> exact .of_view rfl

/-- A change of wishes that touches nothing of it. -/
theorem changeWishes_haltKeeps {f : State → State} {s : State} (hf : HaltKeeps s (f s)) : HaltKeeps s (changeWishes f s) := by
  have judged : ∀ t : State, HaltKeeps t (judgeSeq t) := fun t => .ite (.refl t) (.of_view rfl)
  unfold changeWishes
  exact (hf.trans (judged _)).trans (.trans (.ite (.refl _) (publish_haltKeeps _)) (triggerTest_haltKeeps _))

/-! #### The web's and the chest's part -/

theorem reportPlaces_haltKeeps (s : State) : HaltKeeps s (reportPlaces s) :=
  .ite (.after (clearReason_haltKeeps .mapFull _)) (.of_view rfl)

theorem reportCandidate_haltKeeps (s : State) : HaltKeeps s (reportCandidate s) :=
  .ite (.after (clearReason_haltKeeps .noOrder (headAgain s))) (.refl s)

theorem dropRef_haltKeeps (tag : Nat) (s : State) : HaltKeeps s (dropRef tag s) := by
  unfold dropRef endRollRetirement
  split
  · refine .ite ?_ (.of_view rfl)
    exact .after (concludeWatch_postsOnly _ _ _).haltKeeps
  · exact .of_view rfl

theorem closeNewest_haltKeeps (s : State) : HaltKeeps s (closeNewest s) := by
  unfold closeNewest
  split
  · exact .refl s
  · refine .ite (.refl s) (.ite ?_ (.of_view rfl))
    exact .after ((dropRef_haltKeeps _ { s with web.segs := s.web.segs.dropLast }).trans (reportPlaces_haltKeeps _))

theorem completeOrder_haltKeeps (tag : Nat) (s : State) : HaltKeeps s (completeOrder tag s) := by
  have removed : ∀ o, HaltKeeps s (removeOrder o s) := by
    intro o
    obtain ⟨stays, freed⟩ := removeOrder_cases o s
    by_cases h : (s.slot o.pattern).state = .retiring ∧ (s.slot o.pattern).uses ≤ 1
    · rw [freed h.1 h.2]
      exact .after (concludeWatch_postsOnly _ _ _).haltKeeps
    · rw [stays h]
      exact .of_view rfl
  unfold completeOrder
  split
  · exact .ite ((removed _).trans (concludeWatch_postsOnly _ _ _).haltKeeps) (.refl s)
  · exact .refl s

theorem orderExit_haltKeeps (tag : Nat) (v : Verdict) (r : Reasons) (s : State) : HaltKeeps s (orderExit tag v r s) := by
  unfold orderExit
  split
  · exact .refl s
  · exact .ite (.ite (.after (reportCandidate_haltKeeps _)) (.of_view rfl)) (.after (completeOrder_haltKeeps _ _))

theorem deliver_haltKeeps (no id : Nat) (s : State) : HaltKeeps s (deliver no id s).1 := by
  unfold deliver
  split
  · split
    · have posted := fun a => (conclude_postsOnly no a s).haltKeeps
      simp only
      split
      · exact (posted _).trans (.after (clearReason_haltKeeps .panelsFull _))
      · exact posted _
    · exact .refl s
  · exact .refl s

theorem offerTo_haltKeeps (l : List Nat) (id : Nat) (s : State) : HaltKeeps s (offerTo l id s) := by
  induction l generalizing s with
  | nil => exact .refl s
  | cons no rest ih =>
    have offered : ∀ awaits, HaltKeeps s (deliver no id { s with web.awaits := awaits }).1 :=
      fun _ => .after (deliver_haltKeeps no id _)
    unfold offerTo
    simp only
    split
    · exact offered _
    · exact (offered _).trans (ih _)

theorem removedSeg_haltKeeps (reasons : State → Panel → Reasons) (s : State) (g : Segment) :
    HaltKeeps s (removedSeg reasons s g) := by
  refine .trans ?_ (dropRef_haltKeeps _ _)
  unfold exitSeg
  split
  · split
    · refine .trans ?_ (offerTo_haltKeeps _ _ _)
      exact .after (orderExit_haltKeeps _ _ _ _)
    · exact .refl s
  · exact .refl s

theorem removeBelow_haltKeeps (bound : Nat) (s : State) : HaltKeeps s (removeBelow bound s) := by
  have removed : HaltKeeps s ((s.web.segs.takeWhile (Segment.below bound)).foldl (removedSeg State.reasonsOf)
      { s with web.segs := s.web.segs.dropWhile (Segment.below bound) }) :=
    .after (.foldl (removedSeg_haltKeeps _) _ _)
  exact .ite removed (removed.trans (reportPlaces_haltKeeps _))

theorem creditPanel_haltKeeps (occupant dose peak : Nat) (s : State) : HaltKeeps s (creditPanel occupant dose peak s) := by
  unfold creditPanel
  split
  · split <;> exact .of_view rfl
  · exact .refl s

theorem cellExit_haltKeeps (c : Cell) (s : State) : HaltKeeps s (cellExit c s) := by
  have credited : ∀ f : CellFill, HaltKeeps s (if f.second = f.first then creditPanel f.first f.dose f.peak s
      else creditPanel f.second f.dose f.peak (creditPanel f.first f.dose f.peak s)) :=
    fun f => .ite (creditPanel_haltKeeps _ _ _ _) ((creditPanel_haltKeeps _ _ _ _).trans (creditPanel_haltKeeps _ _ _ _))
  obtain ⟨_ | b, _ | f⟩ := c
  · exact .refl s
  · exact credited f
  · exact removeBelow_haltKeeps _ _
  · exact (credited f).trans (removeBelow_haltKeeps _ _)

theorem crossing_haltKeeps (s : State) : HaltKeeps s (crossing s) := by
  have left : HaltKeeps s (shiftCells (cellExit s.lastCell { s with chest.cells := s.chest.cells.dropLast ++ [⟨none, none⟩] })) :=
    .after ((cellExit_haltKeeps _ _).trans (.of_view rfl))
  exact .ite left (left.trans (publish_haltKeeps _))

theorem crossings_haltKeeps (n : Nat) (s : State) : HaltKeeps s (crossings n s) := by
  induction n generalizing s with
  | zero => exact .refl s
  | succ n ih => exact (crossing_haltKeeps s).trans (ih _)

/-- R117: of the head an output report raises O alone. -/
theorem reportOutput_haltKeeps (len : Nat) (s : State) : HaltKeeps { s with head.o := s.head.o + len } (reportOutput len s) :=
  crossings_haltKeeps _ _

end Sys2Proof.Machine

/-! ### A halt at the head (O44) -/

namespace Sys2Proof.Machine

/-- R81, step 2: what the unit in flight gives as it is finished. -/
def State.flightOutput (s : State) : Nat :=
  match s.head.flight with
  | some fl => fl.unit.output
  | none => 0

/-- R81, step 3: the panel in progress cut. -/
def haltCut (s : State) : State :=
  match s.head.panel with
  | some id => { cutPanel id s with head.gapOwed := true }
  | none => s

/-- R86: the trials in progress ended. -/
def haltAlign (s : State) : State :=
  match s.head.align with
  | some a => finishAlign a (haltedAnswer s.line.cause) s
  | none => s

/-- R81, R84, R86: the runs dropped and the alignment INVALID, once unit and panel are gone. -/
def haltRuns (s : State) : State :=
  let t := haltAlign s
  judgeHead { t with
    head.run := keepRun [.guard, .splice] t.head.run, head.suspended := none, head.drainSpent := false
    head.aligned := false }

/-- R81: no draw wanted, no stroke commanded, no report owed. -/
def haltDrops (s : State) : State := { withdraw s with head.blade := [], head.late := ⟨0, 0⟩ }

theorem haltHead_eq (s : State) : haltHead s = haltRuns (haltCut (finishFlight (haltDrops s))) := rfl

/-- R65, R72, R81: the head without its panel, in HALT. -/
def Head.panelCut (h : Head) : Head :=
  { h with
    state := .retracted, panel := none, meter := none, cursor := Cursor.clear, committed := h.f, counting := false
    expected := none, gapOwed := true }

/-- R81, R84: the head with its runs dropped, in HALT. -/
def Head.runsHalted (h : Head) : Head :=
  { h with
    state := .retracted, run := keepRun [.guard, .splice] h.run, suspended := none, drainSpent := false, aligned := false }

theorem keepRun_keepRun (r : Option Run) :
    keepRun [.guard, .splice] (keepRun [.gap, .drain, .guard, .splice] r) = keepRun [.guard, .splice] r := by
  cases r with
  | none => rfl
  | some x => cases hp : x.purpose <;> simp [keepRun, hp]

theorem keepRun_guard_splice (r : Option Run) :
    keepRun [.guard, .splice] r = r.filter (fun x => x.purpose = .guard ∨ x.purpose = .splice) := by
  cases r <;> simp [keepRun, Option.filter]

/-- R81, R90: the newest segment closed and the panel's record marked cut. -/
def cutClosed (id : Nat) (s : State) : State := (closeNewest s).mapPanel id (fun p => { p with state := .inPath, cut := true })

/-- R56, R81: the cut reported to the panel's order. -/
def cutTold (id : Nat) (s : State) : State := orderPanelCut (s.panelOrder id) (cutClosed id s)

theorem cutPanel_told (id : Nat) (s : State) : cutPanel id s = leaveForming { cutTold id s with
    head.committed := (cutTold id s).head.f, head.counting := false, head.expected := none } := rfl

section HaltedHead

variable {s : State} (h : s.line.state = .halt)
include h

/-- R81, step 2: the unit in flight is finished with its output. -/
theorem finishFlight_inHalt : InHalt { s with head.flight := none, head.o := s.head.o + s.flightOutput } (finishFlight s) := by
  rw [finishFlight, State.flightOutput]
  cases hf : s.head.flight with
  | some fl => exact reportOutput_haltKeeps fl.unit.output { s with head.flight := none } h
  | none =>
    exact .of_view (by simp only [State.haltView, Nat.add_zero, hf])

/-- R56, R81: the cut report may release the order. -/
theorem orderPanelCut_inHalt (tag : Nat) : ∃ b, InHalt { s with head.bound := b } (orderPanelCut tag s) := by
  unfold orderPanelCut
  split
  · split
    · have released : HaltKeeps { s with head.bound := none } (releaseOrder tag s) := .after (completeOrder_haltKeeps tag _)
      exact ⟨none, released h⟩
    · exact ⟨s.head.bound, .of_view rfl⟩
  · exact ⟨s.head.bound, .of_view rfl⟩

/-- R81, step 3: what a cut leaves with the order told, before the panel leaves the head. -/
theorem cutTold_inHalt (id : Nat) : (∃ b, InHalt { s with head.bound := b } (cutTold id s)) ∧
    ∀ p ∈ (cutTold id s).web.panels, p.id = id → p.state = .inPath ∧ p.cut = true := by
  have shut : InHalt s (cutClosed id s) := (closeNewest_haltKeeps s h).trans (.of_view rfl)
  obtain ⟨b, told⟩ := orderPanelCut_inHalt (shut.line.trans h) (s.panelOrder id)
  refine ⟨⟨b, (shut.mapHead fun hd => { hd with bound := b }).trans told⟩, ?_⟩
  have panels : (cutTold id s).web.panels = (cutClosed id s).web.panels := (samePath_of_path (orderPanelCut_path _ _)).panels
  intro p hp named
  rw [panels] at hp
  obtain ⟨y, _, rfl⟩ := List.mem_map.1 hp
  split at named
  next same =>
    rw [if_pos same]
    exact ⟨rfl, rfl⟩
  next other => exact absurd (beq_iff_eq.2 named) other

/-- R81, step 3: the panel in progress is cut. -/
theorem haltCut_inHalt {id : Nat} (hp : s.head.panel = some id) :
    (∃ b, InHalt { s with head := { s.head.panelCut with bound := b } } (haltCut s)) ∧
    ∀ p ∈ (haltCut s).web.panels, p.id = id → p.state = .inPath ∧ p.cut = true := by
  obtain ⟨⟨b, told⟩, marked⟩ := cutTold_inHalt h id
  have halted : (cutTold id s).line.state = .halt := told.line.trans h
  have cuts : haltCut s = { cutTold id s with head := (cutTold id s).head.panelCut } := by
    simp only [haltCut, hp, cutPanel_told, leaveForming, judgeHead, halted, headStateOf, Head.panelCut]
  rw [cuts]
  exact ⟨⟨b, told.mapHead Head.panelCut⟩, marked⟩

/-- R81, R84: the runs dropped with no trials in progress. -/
theorem haltRuns_idle (ha : s.head.align = none) : haltRuns s = { s with head := s.head.runsHalted } := by
  simp only [haltRuns, haltAlign, ha, judgeHead, h, headStateOf, Head.runsHalted]

variable (hw : s.head.wanted = none) (hf : s.head.flight = none)
include hw hf

/-- R86: the trials end in HALT, over the state with their segment shut. -/
theorem endAlign_halt {z : State} (hz : (if s.newestSeg.any (fun g => g.kind == .trial) then closeNewest s else s) = z) :
    InHalt s z ∧ endAlign s = { z with
      head.state := .retracted, head.align := none, head.run := keepRun [.gap, .drain, .guard, .splice] z.head.run } := by
  have shut : InHalt s z := hz ▸ HaltKeeps.ite (closeNewest_haltKeeps s) (.refl s) h
  have halted : z.line.state = .halt := shut.line.trans h
  have unwanted : z.head.wanted = none := (shut.kept Head.wanted).trans hw
  have flight : z.head.flight = none := (shut.kept Head.flight).trans hf
  have idle : (if z.head.wanted.isSome = true ∧ z.head.passage = .none then withdraw z else z) = z :=
    if_neg (by rw [unwanted]; exact fun e => Bool.false_ne_true e.1)
  refine ⟨shut, ?_⟩
  unfold endAlign
  simp only [hz, idle]
  refine (if_neg fun e => ?_).trans ?_
  · cases halted.symm.trans e
  · simp only [judgeHead, flight, Option.map_none, halted, headStateOf]

/-- R81, R86: the runs dropped and the trials ended, over the state with the trials' answer posted and their segment shut. -/
theorem haltRuns_trials {a : Align} {w z : State} (ha : s.head.align = some a)
    (hw' : concludeWatch a.entry (haltedAnswer s.line.cause) s = w)
    (hz : (if w.newestSeg.any (fun g => g.kind == .trial) then closeNewest w else w) = z) :
    InHalt s z ∧ z.web.panels = s.web.panels ∧ haltRuns s = { z with head := { z.head.runsHalted with align := none } } := by
  have posts : PostsOnly s w := hw' ▸ concludeWatch_postsOnly a.entry _ s
  have told := posts.haltKeeps h
  have halted : w.line.state = .halt := told.line.trans h
  obtain ⟨shut, ends⟩ := endAlign_halt halted ((told.kept Head.wanted).trans hw) ((told.kept Head.flight).trans hf) hz
  have quiet : Quiet w z := by
    rw [← hz]
    split
    · exact closeNewest_quiet (by rw [halted]; decide)
    · exact .refl w
  have quiets : Quiet s w := hw' ▸ concludeWatch_quiet a.entry _ s
  refine ⟨told.trans shut, quiet.panels.trans quiets.panels, ?_⟩
  have line : z.line.state = .halt := shut.line.trans halted
  have ended : haltAlign s = endAlign w := by
    rw [haltAlign, ha, ← hw']
    exact finishAlign_eq a _ s
  simp only [haltRuns, ended, ends, judgeHead, keepRun_keepRun, line, headStateOf, Head.runsHalted]

/-- R81, R84, R86: what is left of the head and the panels once the runs and the trials are gone. -/
theorem haltRuns_inHalt : InHalt { s with head := s.head.runsHalted } (haltRuns s) ∧ (haltRuns s).head.align = none ∧
    (haltRuns s).web.panels = s.web.panels := by
  cases ha : s.head.align with
  | none =>
    rw [haltRuns_idle h ha]
    exact ⟨.of_view rfl, ha, rfl⟩
  | some a =>
    obtain ⟨shut, panels, ends⟩ := haltRuns_trials h hw hf ha rfl rfl
    rw [ends]
    exact ⟨(shut.mapHead Head.runsHalted).trans (.of_view rfl), rfl, panels⟩

end HaltedHead

/-- R81: the head once the draw, the strokes, the late reports and the unit in flight are gone. -/
def State.headDropped (s : State) : Head :=
  { s.head with
    wanted := none, blade := [], late := ⟨0, 0⟩, flight := none, o := s.head.o + s.flightOutput }

/-- R81: what a halt takes from the head and what it leaves, whether a panel was in progress or not. -/
theorem haltedHead_fields {s : State} {hd : Head} (free : s.head.panel = none → hd = s.headDropped)
    (cut : ∀ id, s.head.panel = some id → ∃ b, hd = { s.headDropped.panelCut with bound := b }) :
    hd.flight = none ∧ hd.wanted = none ∧ hd.panel = none ∧ hd.run = s.head.run ∧ hd.blade = [] ∧ hd.late = ⟨0, 0⟩ ∧
    hd.offset = s.head.offset ∧ hd.f = s.head.f ∧ hd.passage = s.head.passage ∧ hd.arrival = s.head.arrival ∧
    hd.o = s.head.o + s.flightOutput := by
  cases hp : s.head.panel with
  | none =>
    rw [free hp]
    exact ⟨rfl, rfl, hp, rfl, rfl, rfl, rfl, rfl, rfl, rfl, rfl⟩
  | some id =>
    obtain ⟨b, rfl⟩ := cut id hp
    exact ⟨rfl, rfl, rfl, rfl, rfl, rfl, rfl, rfl, rfl, rfl, rfl⟩

/-- R81, R86: the head in HALT, over the head without its unit and, where one was in progress, without its panel. -/
theorem haltHead_inHalt {s : State} (h : s.line.state = .halt) :
    (haltHead s).head.align = none ∧ ∃ hd : Head, InHalt { s with head := hd.runsHalted } (haltHead s) ∧
      (s.head.panel = none → hd = s.headDropped) ∧
      (∀ id, s.head.panel = some id → (∃ b, hd = { s.headDropped.panelCut with bound := b }) ∧
        ∀ p ∈ (haltHead s).web.panels, p.id = id → p.state = .inPath ∧ p.cut = true) := by
  have dropped : InHalt { s with head := s.headDropped } (finishFlight (haltDrops s)) := by
    refine .trans ?_ (finishFlight_inHalt (s := haltDrops s) h)
    exact .of_view rfl
  rw [haltHead_eq]
  generalize finishFlight (haltDrops s) = t at dropped
  have halted : t.line.state = .halt := dropped.line.trans h
  have panel : t.head.panel = s.head.panel := dropped.kept Head.panel
  cases hp : s.head.panel with
  | none =>
    have uncut : haltCut t = t := by rw [haltCut, panel, hp]
    obtain ⟨runs, align, _⟩ := haltRuns_inHalt halted (dropped.kept Head.wanted) (dropped.kept Head.flight)
    rw [uncut]
    exact ⟨align, s.headDropped, (dropped.mapHead Head.runsHalted).trans runs, fun _ => rfl, nofun⟩
  | some id =>
    obtain ⟨⟨b, cut⟩, marked⟩ := haltCut_inHalt halted (panel.trans hp)
    have gone : InHalt { s with head := { s.headDropped.panelCut with bound := b } } (haltCut t) :=
      (dropped.mapHead fun hd => { hd.panelCut with bound := b }).trans cut
    obtain ⟨runs, align, panels⟩ := haltRuns_inHalt (gone.line.trans h) (gone.kept Head.wanted) (gone.kept Head.flight)
    refine ⟨align, _, (gone.mapHead Head.runsHalted).trans runs, nofun, ?_⟩
    rintro _ ⟨⟩
    exact ⟨⟨b, rfl⟩, panels ▸ marked⟩

end Sys2Proof.Machine

/-! ### A halt cause raised (O44) -/

namespace Sys2Proof.Machine

/-- R135: the line as it enters HALT with a cause. -/
def haltLine (c : HaltCause) (s : State) : State := lineTo .halt { s with line.cause := some c, line.halts := s.line.halts.add c }

/-- R130, R134: the held Start and then the held Stops end as LINE_HALTED. -/
def haltHeld (c : HaltCause) (l : State) : State :=
  l.line.stopWatches.foldl (fun y no => conclude no (haltedAnswer (some c)) y)
    (concludeWatch l.line.startWatch (haltedAnswer (some c)) { l with line.startWatch := none, line.stopWatches := [] })

theorem haltLine_line (c : HaltCause) (s : State) : (haltLine c s).line.state = .halt ∧ (haltLine c s).line.cause = some c ∧
    (haltLine c s).line.halts = s.line.halts.add c := by
  rw [haltLine, lineTo_line]
  exact ⟨rfl, rfl, rfl⟩

/-- R135: a cause raised outside OFF and HALT: the line, the held requests, the head and the turret, in this order. -/
theorem raiseHalt_enters {s : State} (h1 : s.line.state ≠ .off) (h2 : s.line.state ≠ .halt) (c : HaltCause) :
    raiseHalt c s = haltTurret (s.turret.seq == .pressing) (haltHead (haltHeld c (haltLine c s))) := by
  have watches : haltWatches (haltLine c s) = haltHeld c (haltLine c s) := by
    rw [haltWatches, (haltLine_line c s).2.1]
    rfl
  have enters : raiseHalt c s = enterHalt c s := by
    unfold raiseHalt
    split
    next h => exact absurd h h1
    next h => exact absurd h h2
    next => rfl
  rw [enters, ← watches]
  rfl

theorem haltHeld_inHalt {l : State} (h : l.line.state = .halt) (c : HaltCause) :
    InHalt { l with line.startWatch := none, line.stopWatches := [] } (haltHeld c l) :=
  HaltKeeps.trans (concludeWatch_postsOnly _ _ _).haltKeeps (.foldl (fun y no => (conclude_postsOnly no _ y).haltKeeps) _ _) h

/-- R157: the turret's part of a halt leaves the line and the head. -/
theorem haltIdle_haltKeeps (s : State) : HaltKeeps s (haltIdle s) := by
  have wishes : HaltKeeps s (changeWishes (fun t => { t with turret.request := false }) { s with turret.now := none }) :=
    .after (changeWishes_haltKeeps (.of_view rfl))
  exact wishes.trans (concludeWatch_postsOnly _ _ _).haltKeeps

/-- R135: what a halt outside PRESSING leaves of the line. -/
theorem raiseHalt_line {s : State} (h1 : s.line.state ≠ .off) (h2 : s.line.state ≠ .halt) (h3 : s.turret.seq ≠ .pressing)
    (c : HaltCause) :
    let t := raiseHalt c s
    t.line.state = .halt ∧ t.line.cause = some c ∧ t.line.halts = s.line.halts.add c ∧ t.line.startWatch = none ∧
    t.line.stopWatches = [] := by
  obtain ⟨state, cause, halts⟩ := haltLine_line c s
  have held := haltHeld_inHalt state c
  have halted : (haltHeld c (haltLine c s)).line.state = .halt := held.line.trans state
  obtain ⟨_, hd, head, _⟩ := haltHead_inHalt halted
  have turret := haltIdle_haltKeeps (haltHead (haltHeld c (haltLine c s))) (head.line.trans halted)
  have idle : haltTurret (s.turret.seq == .pressing) = haltIdle := by
    rw [beq_false_of_ne h3]
    rfl
  rw [raiseHalt_enters h1 h2, idle]
  exact ⟨turret.line.trans (head.line.trans halted), turret.cause.trans (head.cause.trans (held.cause.trans cause)),
    turret.halts.trans (head.halts.trans (held.halts.trans halts)), turret.start (head.start (held.start rfl)),
    turret.stops (head.stops (held.stops rfl))⟩

/-- R136: Clear Halt by the line state and the two inputs. -/
theorem decideClearHalt_cases (no : Nat) (s : State) :
    (s.line.state ≠ .halt → decideClearHalt no s = conclude no s.wrongLine s) ∧
    (s.line.state = .halt → s.line.estop = true ∨ s.line.drive = true → decideClearHalt no s =
      conclude no (refusal .wrongState (senseVals [natVal (flagNat s.line.estop), natVal (flagNat s.line.drive)])) s) ∧
    (s.line.state = .halt → s.line.estop = false → s.line.drive = false → decideClearHalt no s =
      conclude no (doneParams [(0, [b8 (causeCode s.line.cause)]), (2, le 2 s.line.halts.bits)])
        (lineTo .standby { s with line.cause := none, line.halts := Halts.empty })) := by
  refine ⟨fun other => if_pos other, fun halt active => ?_, fun halt estop drive => ?_⟩ <;>
    rw [decideClearHalt, if_neg (not_not.2 halt)]
  · exact if_pos active
  · rw [if_neg (by rw [estop, drive]; decide), enterLine_elsewhere (by decide)]

/-- Settles O44: Clear Halt by its cases; a halt by its parts in their order, what they leave of a line in HALT, and the invariants, which
give the outputs; the head's part by `haltHead_inHalt`, and with trials alone in progress whole. -/
theorem haltsRaisedAndCleared : Obligations.HaltsRaisedAndCleared := by
  refine ⟨fun e q s x hd => ?_, fun c s inv => ?_, fun e level s => ?_, fun c s h1 h2 => ?_, fun s h => ?_⟩
  · intro u
    obtain ⟨other, active, clears⟩ := decideClearHalt_cases x.no u
    exact ⟨fun h => exec_of_dispatches hd rfl rfl (other h), fun h a => exec_of_dispatches hd rfl rfl (active h a),
      fun h a b => exec_of_dispatches hd rfl rfl (clears h a b)⟩
  · refine ⟨fun h => by rw [raiseHalt, h], fun h => by rw [raiseHalt, h]; rfl, fun h1 h2 h3 => ?_⟩
    intro t
    obtain ⟨state, cause, halts, start, stops⟩ := raiseHalt_line h1 h2 h3 c
    have kept : Inv t := (raiseHalt_good c s).inv inv
    have speed := kept.speed.2
    have holds := kept.holds
    have head := kept.head
    have still : t.line.state.moving = false := by rw [show t.line.state = .halt from state]; rfl
    simp only [State.holdsFit, State.headFollows, show t.line.state = .halt from state] at speed holds head
    exact ⟨state, cause, speed, kept.press.2 (.inr (.inl still)), holds, halts, start, stops, head⟩
  · intro u stop drive
    have rises : ∀ {old : Bool}, (level && !old) = true ↔ level = true ∧ old = false := by simp
    refine ⟨fun h => ?_, fun h => ?_, fun h => ?_, fun h => ?_⟩
    · exact event_of_eq (if_pos (rises.2 h))
    · exact event_of_eq (if_neg (mt rises.1 h))
    · exact event_of_eq (if_pos (rises.2 h))
    · exact event_of_eq (if_neg (mt rises.1 h))
  · intro a l w
    have raised : raiseHalt c s = haltTurret (s.turret.seq == .pressing) w := raiseHalt_enters h1 h2 c
    obtain ⟨state, cause, _⟩ := haltLine_line c s
    have held := haltHeld_inHalt state c
    have stands : w.line.cause = some c := (haltHead_sure _).same.cause.trans (held.cause.trans cause)
    refine ⟨fun h3 => ?_, fun h3 => ?_⟩
    · rw [raised, beq_false_of_ne h3]
      show haltIdle w = _
      rw [haltIdle, stands]
    · rw [raised, h3]
      rfl
  · intro t kept
    obtain ⟨align, hd, head, free, cut⟩ := haltHead_inHalt h
    obtain ⟨flight, wanted, panel, run, blade, late, offset, f, passage, arrival, o⟩ :=
      haltedHead_fields free fun id hp => (cut id hp).1
    have runsKept : t.head.run = keepRun [.guard, .splice] hd.run := head.kept Head.run
    have runs : keepRun [.guard, .splice] s.head.run = kept := keepRun_guard_splice s.head.run
    refine ⟨head.kept Head.state, (head.kept Head.flight).trans flight, (head.kept Head.wanted).trans wanted,
      (head.kept Head.panel).trans panel, align, by rw [runsKept, run, runs], head.kept Head.suspended,
      (head.kept Head.blade).trans blade, (head.kept Head.late).trans late, head.kept Head.aligned,
      (head.kept Head.offset).trans offset, head.kept Head.drainSpent, (head.kept Head.f).trans f,
      (head.kept Head.passage).trans passage, (head.kept Head.arrival).trans arrival, (head.kept Head.o).trans o,
      fun none => ?_, fun id some => ?_, fun a trials noUnit noPanel => ?_⟩
    · obtain rfl := free none
      exact ⟨head.kept Head.gapOwed, head.kept Head.committed⟩
    · obtain ⟨⟨b, rfl⟩, marked⟩ := cut id some
      exact ⟨head.kept Head.gapOwed, head.kept Head.committed, head.kept Head.counting, head.kept Head.expected, marked⟩
    · intro y w z
      have begins : haltHead s = haltRuns y := by
        rw [haltHead_eq, finishFlight, show (haltDrops s).head.flight = none from noUnit]
        simp only [haltCut]
        rw [show (haltDrops s).head.panel = none from noPanel]
        rfl
      obtain ⟨shut, _, ends⟩ := haltRuns_trials (s := y) (a := a) (w := w) (z := z) h rfl noUnit trials rfl rfl
      have same : z.head.run = s.head.run := shut.kept Head.run
      rw [show t = haltHead s from rfl, begins, ends, Head.runsHalted, same, runs]

end Sys2Proof.Machine

/-! ### Spindles and rolls after a change (R40, R146) -/

namespace Sys2Proof.Machine

theorem spindle_mapSpindle_same (i : SpindleId) (f : Spindle → Spindle) (s : State) :
    (s.mapSpindle i f).spindle i = f (s.spindle i) := by cases i <;> rfl

theorem spindle_mapSpindle_ne {i j : SpindleId} (h : j ≠ i) (f : Spindle → Spindle) (s : State) :
    (s.mapSpindle i f).spindle j = s.spindle j := by
  cases i <;> cases j
  · exact absurd rfl h
  · rfl
  · rfl
  · exact absurd rfl h

theorem oppositeSpindle_iff {i j : SpindleId} : i = oppositeSpindle j ↔ i = .a ∧ j = .b ∨ i = .b ∧ j = .a := by
  cases i <;> cases j <;> decide

theorem eq_oppositeSpindle_of_ne {i j : SpindleId} : i ≠ j → i = oppositeSpindle j := by cases i <;> cases j <;> decide

/-- R146: what feeds is a FEEDING spindle. -/
theorem feeding_state {s : State} {i : SpindleId} (h : s.feeding = some i) : (s.spindle i).state = .feeding := by
  rw [State.feeding] at h
  split at h
  next fa => cases h; exact fa
  next =>
    split at h
    next fb => cases h; exact fb
    next => cases h

/-- R146: a FEEDING spindle feeds unless the other one does too. -/
theorem feeding_of_state {s : State} {i j : SpindleId} (opposite : i = oppositeSpindle j) (hi : (s.spindle i).state = .feeding)
    (hj : (s.spindle j).state ≠ .feeding) : s.feeding = some i := by
  rcases oppositeSpindle_iff.1 opposite with ⟨rfl, rfl⟩ | ⟨rfl, rfl⟩
  · exact if_pos hi
  · exact (if_neg hj).trans (if_pos hi)

theorem readyOther_eq_some {s : State} {j : SpindleId} :
    s.readyOther = some j ↔ s.feeding = some (oppositeSpindle j) ∧ (s.spindle j).state = .ready := by
  rw [State.readyOther, State.otherSpindle]
  rcases s.feeding with _ | _ | _ <;> cases j <;> simp [oppositeSpindle]

/-! ### The splice wishes and the trigger test (O24) -/

/-- R150: a splice is wanted while a roll is RUNNING and a wish is set. -/
theorem wanted_iff (s : State) : s.wanted = true ↔
    s.runningRoll ≠ none ∧ (s.turret.point = true ∨ s.turret.headWish = true ∨ s.turret.request = true) := by
  simp only [State.wanted, Bool.and_eq_true, Bool.or_eq_true, Option.isSome_iff_ne_none, or_assoc]

/-- R151, condition 3. -/
theorem triggerState_iff (s : State) : s.triggerState = true ↔
    s.line.state = .thread ∨ s.line.state = .starting ∨ s.line.state = .run ∨ s.line.state = .hold ∨ s.line.state = .stopping ∨
      s.line.state = .standby ∧ s.turret.request = true := by
  simp only [State.triggerState, moving_eq, Bool.or_eq_true, Bool.and_eq_true, decide_eq_true_eq, beq_iff_eq, or_assoc]

/-- R151, condition 4. -/
theorem reserveMet_iff (s : State) : s.reserveMet = true ↔ s.line.state = .standby ∨ s.k.reserve ≤ s.line.store := by
  simp only [State.reserveMet, Bool.or_eq_true, beq_iff_eq, decide_eq_true_eq]

/-- R151: the conditions of the trigger but those on the spindles. -/
def State.triggerMet (s : State) : Prop :=
  s.turret.seq = .pending ∧ s.wanted = true ∧ s.triggerState = true ∧ s.reserveMet = true ∧ s.head.arrival = none ∧
    s.head.committed + s.k.guardLen ≤ s.splicerPos

theorem triggerReady_eq_some {s : State} {i j : SpindleId} : s.triggerReady = some (i, j) ↔
    s.feeding = some i ∧ i = oppositeSpindle j ∧ (s.spindle j).state = .ready ∧ s.triggerMet := by
  constructor
  · intro h
    rw [State.triggerReady] at h
    split at h
    next i' j' feeds ready =>
      split at h
      next met =>
        cases h
        obtain ⟨feeds', state⟩ := readyOther_eq_some.1 ready
        exact ⟨feeds, Option.some.inj (feeds.symm.trans feeds'), state, met⟩
      next => cases h
    next => cases h
  · rintro ⟨feeds, rfl, state, met⟩
    rw [State.triggerReady, feeds, readyOther_eq_some.2 ⟨feeds, state⟩]
    exact if_pos met

/-- R152: a trigger leaves the unwind off, as the sequence is PRESSING. -/
theorem trigger_eq (i j : SpindleId) (s : State) : trigger i j s = { s with
    turret.seq := .pressing, turret.pressOut := true, turret.tail := false
    turret.outgoing := some ⟨(s.spindle i).tag.getD 0, i⟩, turret.incoming := some ⟨(s.spindle j).tag.getD 0, j⟩
    turret.press := some ⟨s.line.clock, 1000 * s.k.spliceTimeout⟩, line.unwind := false, line.stall := none } := by
  simp only [trigger, judgeUnwind, bne_self_eq_false, Bool.and_false]
  rfl

/-- R151, R152: with one spindle FEEDING, the trigger turns on the other one and on the rest of its conditions. -/
theorem triggerTest_cases {s : State} {i j : SpindleId} (opposite : i = oppositeSpindle j) (feeds : (s.spindle i).state = .feeding) :
    ((s.spindle j).state = .ready ∧ s.triggerMet → triggerTest s = trigger i j s) ∧
    (¬ ((s.spindle j).state = .ready ∧ s.triggerMet) → triggerTest s = s) := by
  refine ⟨fun ⟨ready, met⟩ => ?_, fun unmet => ?_⟩
  · have found := feeding_of_state opposite feeds (by rw [ready]; decide)
    rw [triggerTest, triggerReady_eq_some.2 ⟨found, opposite, ready, met⟩]
  · rw [triggerTest]
    split
    next i' j' h =>
      obtain ⟨feeds', opposite', ready, met⟩ := triggerReady_eq_some.1 h
      by_cases same : j' = j
      · exact absurd ⟨same ▸ ready, met⟩ unmet
      · rw [eq_oppositeSpindle_of_ne same, ← opposite, feeds] at ready
        cases ready
    next => rfl

/-- R151: with no spindle FEEDING nothing is triggered. -/
theorem triggerTest_unfed {s : State} (ha : (s.spindle .a).state ≠ .feeding) (hb : (s.spindle .b).state ≠ .feeding) :
    triggerTest s = s := by
  have none : s.feeding = none := (if_neg ha).trans (if_neg hb)
  rw [triggerTest, State.triggerReady, none]

/-- R150: the sequence judged, in one equation. -/
theorem judgeSeq_eq (s : State) : judgeSeq s = { s with
    turret.seq := if s.turret.seq = .pressing then .pressing else if s.wanted = true then .pending else .idle } := by
  by_cases h : s.turret.seq = .pressing
  · rw [judgeSeq, if_pos h, if_pos h, ← h]
  · rw [judgeSeq, if_neg h, if_neg h]

/-- R150: the point wish judged against Rs. -/
theorem judgePoint_running {s : State} {k : Consts} {r : Roll} (hk : s.line.consts = some k) (hr : s.runningRoll = some r) :
    judgePoint s = { s with turret.point := decide (r.declared - r.u ≤ k.rs) } := by
  rw [judgePoint, hr, k_of_consts hk]
  rfl

theorem judgePoint_none {s : State} (hr : s.runningRoll = none) : judgePoint s = { s with turret.point := false } := by
  rw [judgePoint, hr]

/-- R150: a change of wishes publishes the ceiling when a splice becomes wanted or no longer wanted. -/
theorem changeWishes_cases (f : State → State) (s : State) :
    ((f s).wanted = s.wanted → changeWishes f s = triggerTest (judgeSeq (f s))) ∧
    ((f s).wanted ≠ s.wanted → changeWishes f s = triggerTest (publish (judgeSeq (f s)))) := by
  have same : (judgeSeq (f s)).wanted = (f s).wanted := by rw [judgeSeq_eq]; rfl
  rw [changeWishes, same]
  exact ⟨fun h => by rw [if_pos h], fun h => by rw [if_neg h]⟩

/-- Settles O24: each judgement by its cases; the trigger test by the spindles and `triggerMet`. -/
theorem spliceWishesAndTrigger : Obligations.SpliceWishesAndTrigger := by
  refine ⟨fun s k hk => ⟨fun r hr => judgePoint_running hk hr, judgePoint_none⟩, fun f s => ?_, fun s k i j hk opposite => ?_,
    fun s => triggerTest_unfed, fun s => ⟨fun h => if_pos h, fun h wants => ?_, fun h idle => ?_⟩⟩
  · intro wants t u
    obtain ⟨same, changed⟩ := changeWishes_cases f s
    have judged : judgeSeq (f s) = u := judgeSeq_eq (f s)
    rw [judged] at same changed
    exact ⟨same, changed⟩
  · intro l wanted ready feeds
    have met : ready ↔ (s.spindle j).state = .ready ∧ s.triggerMet := by
      rw [State.triggerMet, wanted_iff, triggerState_iff, reserveMet_iff, State.splicerPos, k_of_consts hk]
      exact ⟨fun ⟨seq, wants, state, rest⟩ => ⟨state, seq, wants, rest⟩, fun ⟨state, seq, wants, rest⟩ => ⟨seq, wants, state, rest⟩⟩
    obtain ⟨triggers, stays⟩ := triggerTest_cases (oppositeSpindle_iff.2 opposite) feeds
    refine ⟨fun h => stays (mt met.2 h), fun h => (triggers (met.1 h)).trans ?_⟩
    rw [trigger_eq, k_of_consts hk]
  · rw [judgeSeq, if_neg h, show s.wanted = true from wants]
    rfl
  · rw [judgeSeq, if_neg h, show s.wanted = false from idle]
    rfl

end Sys2Proof.Machine

/-! ### Mount Roll (O22) -/

namespace Sys2Proof.Machine

/-- R147: a spindle code that names neither spindle. -/
theorem spindleOfCode_eq_none {sp : U8} (h1 : sp ≠ 1) (h2 : sp ≠ 2) : spindleOfCode sp.toNat = none :=
  (if_neg (mt BitVec.eq_of_toNat_eq h1)).trans (if_neg (mt BitVec.eq_of_toNat_eq h2))

/-- R147: the two codes that name a spindle. -/
theorem spindleOfCode_eq_some {sp : U8} {i : SpindleId} : spindleOfCode sp.toNat = some i ↔ sp = 1 ∧ i = .a ∨ sp = 2 ∧ i = .b := by
  by_cases h1 : sp = 1
  · subst h1
    cases i <;> decide
  · by_cases h2 : sp = 2
    · subst h2
      cases i <;> decide
    · rw [spindleOfCode_eq_none h1 h2]
      exact ⟨nofun, fun h => h.elim (fun h => absurd h.1 h1) (fun h => absurd h.1 h2)⟩

theorem threadedAllowed_iff (s : State) : s.threadedAllowed = true ↔
    s.runningRoll = none ∧ (s.line.state = .off ∨ s.line.state = .standby ∨ s.line.state = .thread) := by
  simp only [State.threadedAllowed, Bool.and_eq_true, Bool.or_eq_true, Option.isNone_iff_eq_none, beq_iff_eq, or_assoc]

section MountDecision

variable {no : Nat} {q : Req} {sp : U8} {s : State} (h0 : q.key.toNat ≠ 0)
include h0

/-- R147, steps 1 and 2: a spindle code that names neither spindle, and a roll not present. -/
theorem decideMount_absent :
    (spindleOfCode sp.toNat = none → decideMount no q sp s = conclude no (badField (fieldId 0 0) [natVal sp.toNat]) s) ∧
    (∀ i, spindleOfCode sp.toNat = some i → s.findRoll q.key.toNat = none →
      decideMount no q sp s = conclude no (refusal .noRecord Sense.none) s) := by
  refine ⟨fun hi => ?_, fun i hi hr => ?_⟩
  · simp only [decideMount, if_neg h0, hi]
  · simp only [decideMount, if_neg h0, hi, hr]

variable {i : SpindleId} {r : Roll} (hi : spindleOfCode sp.toNat = some i) (hr : s.findRoll q.key.toNat = some r)
include hi hr

/-- R147: Mount Roll of a STAGED roll turns on the spindle, and then on where a threaded start is made. -/
theorem decideMount_staged (hst : r.state = .staged) :
    let threaded := threadedStart q.key.toNat i s
    let mounted := mountRoll q.key.toNat i s
    ((s.spindle i).state ≠ .empty → decideMount no q sp s = conclude no (refusal .inUse ⟨0, some (spindleIdCode i),
      [natVal (s.spindle i).state.code, natVal (orZero (s.spindle i).tag)]⟩) s) ∧
    ((s.spindle i).state = .empty → decideMount no q sp s =
      if s.threadedAllowed = true then conclude no (mountAnswer 1 threaded) threaded
      else conclude no (mountAnswer 2 mounted) mounted) := by
  simp only [decideMount, if_neg h0, hi, hr, hst]
  exact ⟨fun taken => if_pos taken, fun empty => if_neg (not_not.2 empty)⟩

/-- R147, step 5: a roll that hangs on a spindle already. -/
theorem decideMount_hung (hst : r.state = .mounted ∨ r.state = .prepared) :
    let threaded := threadedStart q.key.toNat i s
    decideMount no q sp s = if r.spindle = some i ∧ s.threadedAllowed = true then conclude no (mountAnswer 3 threaded) threaded
      else conclude no (refusal .wrongState (senseVals [natVal r.state.code, natVal (spindleCode r.spindle)])) s := by
  rcases hst with hst | hst <;> simp only [decideMount, if_neg h0, hi, hr, hst]

/-- R147, step 3: a roll in use or used up. -/
theorem decideMount_used (hst : r.state = .running ∨ r.state = .spent) : decideMount no q sp s =
    conclude no (refusal .wrongState (senseVals [natVal r.state.code, natVal (spindleCode r.spindle)])) s := by
  rcases hst with hst | hst <;> simp only [decideMount, if_neg h0, hi, hr, hst]

end MountDecision

/-- Settles O22: Mount Roll by its key and its spindle code, and then by the roll's state. -/
theorem mountRollStartsOrMounts : Obligations.MountRollStartsOrMounts := by
  refine ⟨fun e q sp s x r i hd => ?_, fun e q sp s x hd => ?_⟩
  · intro u tag free run started mounted answer h0 code hr
    have answered : ∀ t, decideMount x.no q sp u = t → exec (.mountRoll e q sp) s = .next (settle t) :=
      fun t ht => exec_of_dispatches hd rfl rfl ht
    have hi := spindleOfCode_eq_some.2 code
    have allowed : u.threadedAllowed = true ↔ free := threadedAllowed_iff u
    refine ⟨fun staged empty isFree => ?_, fun staged empty notFree => ?_, fun hung own isFree => ?_, fun wrong => ?_,
      fun staged taken => ?_⟩
    · exact answered _ (((decideMount_staged h0 hi hr staged).2 empty).trans (if_pos (allowed.2 isFree)))
    · exact answered _ (((decideMount_staged h0 hi hr staged).2 empty).trans (if_neg (mt allowed.1 notFree)))
    · exact answered _ ((decideMount_hung h0 hi hr hung).trans (if_pos ⟨own, allowed.2 isFree⟩))
    · rw [← allowed] at wrong
      rcases wrong with running | spent | ⟨hung, elsewhere⟩
      · exact answered _ (decideMount_used h0 hi hr (.inl running))
      · exact answered _ (decideMount_used h0 hi hr (.inr spent))
      · exact answered _ ((decideMount_hung h0 hi hr hung).trans (if_neg elsewhere))
    · exact answered _ ((decideMount_staged h0 hi hr staged).1 taken)
  · intro u tag refused
    refine ⟨fun h0 => exec_of_dispatches hd rfl rfl (if_pos h0), fun h0 h1 h2 => ?_, fun h0 code hr => ?_⟩
    · exact exec_of_dispatches hd rfl rfl ((decideMount_absent h0).1 (spindleOfCode_eq_none h1 h2))
    · have named : ∃ i, spindleOfCode sp.toNat = some i := by
        rcases code with one | two
        · exact ⟨.a, spindleOfCode_eq_some.2 (.inl ⟨one, rfl⟩)⟩
        · exact ⟨.b, spindleOfCode_eq_some.2 (.inr ⟨two, rfl⟩)⟩
      obtain ⟨i, hi⟩ := named
      exact exec_of_dispatches hd rfl rfl ((decideMount_absent h0).2 i hi hr)

/-! ### Splice Now (O23) -/

/-- R158: Splice Now by the line state, the RUNNING roll and the watch. -/
theorem decideSpliceNow_cases (no : Nat) (s : State) :
    (s.line.state = .off ∨ s.line.state = .halt → decideSpliceNow no s = conclude no s.wrongLine s) ∧
    (s.line.state ≠ .off → s.line.state ≠ .halt → s.runningRoll = none ∨ s.turret.now ≠ none →
      decideSpliceNow no s = conclude no (refusal .wrongState Sense.none) s) ∧
    (s.line.state ≠ .off → s.line.state ≠ .halt → s.runningRoll ≠ none → s.turret.now = none → decideSpliceNow no s =
      changeWishes (fun t => { t with turret.request := true }) (holdRunning no { s with turret.now := some no })) := by
  simp only [decideSpliceNow, Option.isNone_iff_eq_none, Option.isSome_iff_ne_none]
  refine ⟨fun still => if_pos still, fun h1 h2 wrong => ?_, fun h1 h2 roll unheld => ?_⟩
  · rw [if_neg (not_or.2 ⟨h1, h2⟩), if_pos wrong]
  · rw [if_neg (not_or.2 ⟨h1, h2⟩), if_neg (not_or.2 ⟨roll, not_not.2 unheld⟩)]

/-- Settles O23: each refusal and the wish set, by the cases of the decision. -/
theorem spliceNowSetsTheRequestWish : Obligations.SpliceNowSetsTheRequestWish := by
  intro e q s x hd u
  obtain ⟨still, wrong, wishes⟩ := decideSpliceNow_cases x.no u
  exact ⟨fun h => ⟨_, rfl, exec_of_dispatches hd rfl rfl (still h)⟩,
    fun h1 h2 h => ⟨_, exec_of_dispatches hd rfl rfl (wrong h1 h2 h)⟩,
    fun h1 h2 roll unheld => exec_of_dispatches hd rfl rfl (wishes h1 h2 roll unheld)⟩

/-! ### The spindle inputs (O50) -/

/-- An input's change to active. -/
theorem rises_iff {level old : Bool} : (level && !old) = true ↔ level = true ∧ old = false := by
  rw [Bool.and_eq_true, Bool.not_eq_true']

/-- R148: a level of the ready input by the input's change and the spindle's state. -/
theorem spindleInput_eq (i : SpindleId) (level : Bool) (s : State) :
    let t := s.mapSpindle i (fun y => { y with readyIn := level })
    spindleInput i level s =
      if level = true ∧ (s.spindle i).readyIn = false ∧ (s.spindle i).state = .loaded then
        triggerTest (publish ((t.mapRoll ((s.spindle i).tag.getD 0) (fun r => { r with state := .prepared })).mapSpindle i
          (fun y => { y with state := .ready })))
      else t := by
  simp only [spindleInput, spindleUp, State.spindleTag, spindle_mapSpindle_same, ← ite_and, rises_iff, and_assoc]
  rfl

/-- R149: a level of the core removed input by the input's change and the spindle's state. -/
theorem coreInput_eq (i : SpindleId) (level : Bool) (s : State) :
    let t := s.mapSpindle i (fun y => { y with coreIn := level })
    let tag := (s.spindle i).tag.getD 0
    coreInput i level s =
      if level = true ∧ (s.spindle i).coreIn = false ∧ (s.spindle i).state = .core then
        endRollRetirement tag ((t.mapRoll tag (fun r => { r with spindle := none })).mapSpindle i
          (fun y => { y with state := .empty, tag := none }))
      else t := by
  simp only [coreInput, coreOff, State.spindleTag, spindle_mapSpindle_same, ← ite_and, rises_iff, and_assoc]
  rfl

/-- Settles O50: each input by its change and the state of its spindle. -/
theorem spindleInputsAtTheirChange : Obligations.SpindleInputsAtTheirChange := by
  intro e i level s u ready core tag
  have readied := spindleInput_eq i level u
  have cored := coreInput_eq i level u
  exact ⟨fun takes => event_of_eq (readied.trans (if_pos takes)), fun other => event_of_eq (readied.trans (if_neg other)),
    fun takes => event_of_eq (cored.trans (if_pos takes)), fun other => event_of_eq (cored.trans (if_neg other))⟩

end Sys2Proof.Machine

/-! ### Changes of the rolls and the spindles alone (O51) -/

namespace Sys2Proof.Machine

/-- A change of the roll records and of the two spindles, and of nothing else. -/
def MovesRolls (s t : State) : Prop :=
  ∃ rolls a b, t = { s with turret.rolls := rolls, turret.spinA := a, turret.spinB := b }

namespace MovesRolls

theorem refl (s : State) : MovesRolls s s := ⟨_, _, _, rfl⟩

theorem mapRoll {s t : State} (h : MovesRolls s t) (tag : Nat) (f : Roll → Roll) : MovesRolls s (t.mapRoll tag f) := by
  obtain ⟨_, _, _, rfl⟩ := h
  exact ⟨_, _, _, rfl⟩

theorem mapSpindle {s t : State} (h : MovesRolls s t) (i : SpindleId) (f : Spindle → Spindle) :
    MovesRolls s (t.mapSpindle i f) := by
  obtain ⟨_, _, _, rfl⟩ := h
  cases i <;> exact ⟨_, _, _, rfl⟩

end MovesRolls

theorem findRoll_tag {s : State} {tag : Nat} {r : Roll} (h : s.findRoll tag = some r) : r.tag = tag := by
  simpa using List.find?_some h

/-- R150: what the point wish is judged to be. -/
def State.atSplicePoint (s : State) : Bool :=
  match s.runningRoll with
  | some r => decide (r.remaining ≤ s.k.rs)
  | none => false

theorem judgePoint_eq (s : State) : judgePoint s = { s with turret.point := s.atSplicePoint } := rfl

theorem atSplicePoint_iff {s : State} {k : Consts} (hk : s.line.consts = some k) :
    s.atSplicePoint = true ↔ ∃ r, s.runningRoll = some r ∧ r.declared - r.u ≤ k.rs := by
  rw [State.atSplicePoint, k_of_consts hk]
  cases s.runningRoll <;> simp [Roll.remaining]

/-! ### The rolls exchange roles (O51) -/

/-- R154, steps 2 and 3: the outgoing roll SPENT on a CORE spindle, the incoming one RUNNING on a FEEDING spindle. -/
def swapRolls (out inc : PressRoll) (s : State) : State :=
  (((s.mapRoll out.tag (fun r => { r with state := .spent })).mapSpindle out.spindle
    (fun x => { x with state := .core })).mapRoll inc.tag (fun r => { r with state := .running, u := 0 })).mapSpindle inc.spindle
    (fun x => { x with state := .feeding })

section Swap

variable {out inc : PressRoll} (s : State)

theorem swapRolls_moves (out inc : PressRoll) : MovesRolls s (swapRolls out inc s) :=
  ((((MovesRolls.refl s).mapRoll _ _).mapSpindle _ _).mapRoll _ _).mapSpindle _ _

theorem swapRolls_line (out inc : PressRoll) : (swapRolls out inc s).line = s.line := by
  simp only [swapRolls, mapSpindle_line, mapRoll_line]

/-- R154: the spindles of the two rolls. -/
theorem swapRolls_spindles (h : out.spindle ≠ inc.spindle) :
    (swapRolls out inc s).spindle out.spindle = { s.spindle out.spindle with state := .core } ∧
    (swapRolls out inc s).spindle inc.spindle = { s.spindle inc.spindle with state := .feeding } := by
  constructor
  · exact (spindle_mapSpindle_ne h _ _).trans (spindle_mapSpindle_same out.spindle _ _)
  · refine (spindle_mapSpindle_same inc.spindle _ _).trans (congrArg (fun y : Spindle => { y with state := .feeding }) ?_)
    exact spindle_mapSpindle_ne h.symm _ _

/-- R154: what the exchange makes of a roll record. -/
def swappedRoll (out inc : PressRoll) (r : Roll) : Roll :=
  if r.tag = out.tag then { r with state := .spent } else if r.tag = inc.tag then { r with state := .running, u := 0 } else r

theorem swapRolls_rolls (h : out.tag ≠ inc.tag) :
    (swapRolls out inc s).turret.rolls = s.turret.rolls.map (swappedRoll out inc) := by
  simp only [swapRolls, mapSpindle_rolls, State.mapRoll, List.map_map]
  refine List.map_congr_left fun r _ => ?_
  simp only [Function.comp_apply, swappedRoll, beq_iff_eq]
  by_cases spent : r.tag = out.tag
  · have other : ¬ r.tag = inc.tag := fun same => h (spent.symm.trans same)
    simp only [if_pos spent, if_neg other]
  · simp only [if_neg spent]

/-- R154: with no roll RUNNING but the outgoing one, the incoming one is the RUNNING roll after the exchange. -/
theorem swapRolls_running {r : Roll} (h : out.tag ≠ inc.tag) (hr : s.findRoll inc.tag = some r)
    (alone : ∀ y ∈ s.turret.rolls, y.state = .running → y.tag = out.tag) :
    (swapRolls out inc s).runningRoll = some { r with state := .running, u := 0 } := by
  have runs : ∀ y ∈ s.turret.rolls, ((swappedRoll out inc y).state == .running) = (y.tag == inc.tag) := by
    intro y hy
    rw [Bool.eq_iff_iff, beq_iff_eq, beq_iff_eq, swappedRoll]
    split
    next spent => simp [spent, h]
    next other =>
      split
      next incoming => simp [incoming]
      next neither => exact ⟨fun running => absurd (alone y hy running) other, fun incoming => absurd incoming neither⟩
  have incoming : swappedRoll out inc r = { r with state := .running, u := 0 } := by
    rw [swappedRoll, if_neg (by rw [findRoll_tag hr]; exact h.symm), if_pos (findRoll_tag hr)]
  rw [State.runningRoll, swapRolls_rolls s h, List.find?_map, Function.comp_def, List.find?_congr runs,
    show s.turret.rolls.find? _ = some r from hr, Option.map_some, incoming]

/-- R150, R154: the exchange, with the point wish and the sequence judged for the new RUNNING roll. -/
theorem exchangeRolls_eq (out inc : PressRoll) (pos : Nat) : exchangeRolls out inc pos s =
    let w := swapRolls out inc s
    { s with
      turret := { s.turret with
        rolls := w.turret.rolls, spinA := w.turret.spinA, spinB := w.turret.spinB
        seq := if w.runningRoll.isSome = true ∧ w.atSplicePoint = true then .pending else .idle, point := w.atSplicePoint
        headWish := false, request := false, outgoing := none, incoming := none, press := none, tail := false, now := none
        pressOut := false }
      head.wish := false, head.arrival := some ⟨pos, inc.tag⟩ } := by
  have unfolded : ∀ w, swapRolls out inc s = w → exchangeRolls out inc pos s = judgeSeq (judgePoint { w with
      turret.seq := .idle, turret.pressOut := false, turret.outgoing := none, turret.incoming := none, turret.press := none
      turret.request := false, turret.tail := false, turret.headWish := false, turret.now := none
      head.wish := false, head.arrival := some ⟨pos, inc.tag⟩ }) := fun w hw => hw ▸ rfl
  obtain ⟨rolls, a, b, hw⟩ := swapRolls_moves s out inc
  rw [unfolded _ hw, hw, judgeSeq_eq]
  simp only [State.wanted, judgePoint_eq, Bool.or_false, Bool.and_eq_true, reduceCtorEq, if_false]
  rfl

end Swap

/-! ### A splice made (O51) -/

theorem spliceConflict_iff {s : State} {k : Consts} (hk : s.line.consts = some k) (pos : Nat) :
    s.spliceConflict pos = true ↔ s.head.panel ≠ none ∧ pos < s.head.committed + k.guardLen := by
  simp only [State.spliceConflict, k_of_consts hk, Bool.and_eq_true, Option.isSome_iff_ne_none, decide_eq_true_eq]

/-- R159: the results of a made splice turn on the conflict. -/
theorem spliceMadeAnswer_cases {s : State} {out inc : PressRoll} {r : Roll} (pos : Nat) (hr : s.findRoll out.tag = some r) :
    let figures := [(0x00, le 6 pos), (0x08, le 4 inc.tag ++ le 4 out.tag ++ le 4 (r.declared - r.u))]
    (s.spliceConflict pos = true → spliceMadeAnswer s out inc pos =
      { doneDetail 2 with params := figures ++ [(0x14, le 6 s.head.committed)] }) ∧
    (¬ s.spliceConflict pos = true → spliceMadeAnswer s out inc pos = { doneDetail 1 with params := figures }) := by
  rw [spliceMadeAnswer, hr]
  exact ⟨fun h => if_pos h, fun h => if_neg h⟩

/-- R154, R155: the splice made at the position of the splicer; a conflict raises SPLICE_FAULT last. -/
theorem spliceDone_cases {s : State} {k : Consts} (hk : s.line.consts = some k) (out inc : PressRoll) :
    let pos := s.head.f + k.p + s.line.store
    let v := afterPress s.turret (spliceMadeAnswer s out inc pos)
      (headAgain (restartStall (judgeUnwind (exchangeRolls out inc pos s))))
    let conflict := s.head.panel ≠ none ∧ pos < s.head.committed + k.guardLen
    (¬ conflict → spliceDone out inc s = v) ∧ (conflict → spliceDone out inc s = raiseHalt .spliceFault v) := by
  intro pos v conflict
  have place : s.splicerPos = pos := by rw [State.splicerPos, k_of_consts hk]
  rw [spliceDone, place]
  exact ⟨fun h => if_neg (mt (spliceConflict_iff hk pos).1 h), fun h => if_pos ((spliceConflict_iff hk pos).2 h)⟩

/-- R154: the splice-made input counts at its change to active while PRESSING. -/
theorem spliceInput_cases (level : Bool) (s : State) :
    let t := { s with turret.splice := level }
    let made := level = true ∧ s.turret.splice = false ∧ s.turret.seq = .pressing
    (¬ made → spliceInput level s = t) ∧
    (∀ out inc, made → s.turret.outgoing = some out → s.turret.incoming = some inc →
      spliceInput level s = spliceDone out inc t) := by
  intro t made
  have counts : (level && !s.turret.splice && s.turret.seq == .pressing) = true ↔ made := by
    rw [Bool.and_eq_true, rises_iff, beq_iff_eq, and_assoc]
  refine ⟨fun h => if_neg (mt counts.1 h), fun out inc h hout hinc => (if_pos (counts.2 h)).trans ?_⟩
  rw [hout, hinc]

/-! ### A press that ends without a splice (O51) -/

/-- R156: the press deadline is reached when its length has passed since it was set. -/
theorem pressDue_iff (s : State) : s.pressDue = true ↔
    s.turret.seq = .pressing ∧ ∃ d, s.turret.press = some d ∧ d.len ≤ (s.line.clock - d.setAt).toNat := by
  have reached : ∀ d : Deadline, d.reached s.line.clock = true ↔ d.len ≤ (s.line.clock - d.setAt).toNat :=
    fun _ => decide_eq_true_iff
  simp only [State.pressDue, Bool.and_eq_true, beq_iff_eq, Option.any_eq_true, reached]

/-- R156: the incoming roll of a press goes back to being MOUNTED. -/
def returnIncoming (s : State) : State :=
  match s.turret.incoming with
  | some p => (s.mapRoll p.tag (fun r => { r with state := .mounted })).mapSpindle p.spindle (fun x => { x with state := .loaded })
  | none => s

theorem returnIncoming_moves (s : State) : MovesRolls s (returnIncoming s) := by
  rw [returnIncoming]
  split
  · exact ((MovesRolls.refl s).mapRoll _ _).mapSpindle _ _
  · exact .refl s

/-- R156: with an incoming roll, its record and its spindle change. -/
theorem returnIncoming_some {s : State} {inc : PressRoll} (h : s.turret.incoming = some inc) :
    (returnIncoming s).turret.rolls = s.turret.rolls.map (fun r => if r.tag = inc.tag then { r with state := .mounted } else r) ∧
    (returnIncoming s).spindle inc.spindle = { s.spindle inc.spindle with state := .loaded } ∧
    ∀ i, i ≠ inc.spindle → (returnIncoming s).spindle i = s.spindle i := by
  have changed : returnIncoming s = (s.mapRoll inc.tag (fun r => { r with state := .mounted })).mapSpindle inc.spindle
      (fun x => { x with state := .loaded }) := by rw [returnIncoming, h]
  rw [changed]
  refine ⟨?_, spindle_mapSpindle_same inc.spindle _ _, fun i other => spindle_mapSpindle_ne other _ _⟩
  simp only [mapSpindle_rolls, State.mapRoll, beq_iff_eq]

theorem returnIncoming_none {s : State} (h : s.turret.incoming = none) : returnIncoming s = s := by rw [returnIncoming, h]

/-- R142, R150, R156: a press closed, with the sequence and the unwind judged. -/
theorem closePress_eq (s : State) : closePress s =
    let w := returnIncoming s
    { s with
      turret := { s.turret with
        rolls := w.turret.rolls, spinA := w.turret.spinA, spinB := w.turret.spinB
        seq := if w.runningRoll.isSome = true ∧ (s.turret.point = true ∨ s.turret.headWish = true) then .pending else .idle
        request := false, outgoing := none, incoming := none, press := none, now := none, pressOut := false }
      line.unwind := s.line.state.moving && !s.line.latchShut && w.runningRoll.isSome
      line.stall := if s.line.starved = true then some s.line.clock else none } := by
  have unfolded : ∀ w, returnIncoming s = w → closePress s = restartStall (judgeUnwind (judgeSeq { w with
      turret.seq := .idle, turret.pressOut := false, turret.outgoing := none, turret.incoming := none, turret.press := none
      turret.request := false, turret.now := none })) := fun w hw => hw ▸ rfl
  obtain ⟨rolls, a, b, hw⟩ := returnIncoming_moves s
  have driven : ∀ p : Prop, [Decidable p] → ((if p then SpliceState.pending else .idle) != .pressing) = true := by
    intro p _
    split <;> rfl
  rw [unfolded _ hw, hw, judgeSeq_eq]
  simp only [restartStall, judgeUnwind, State.wanted, Bool.or_false, Bool.and_eq_true, Bool.or_eq_true, reduceCtorEq, if_false,
    driven, Bool.and_true]
  rfl

/-- Settles O51: the made splice by the input's change and the conflict, the timeout by its deadline; the exchange and the closed press by
their equations, with what they make of the rolls and the spindles. -/
theorem endsOfAPress : Obligations.EndsOfAPress := by
  refine ⟨fun e level s out inc k => ?_, fun out inc pos s tags spindles => ?_, fun e s d => ?_, fun s => ?_, fun old a s => rfl,
    fun t out inc hout hinc => ?_, fun s out inc pos r k hr hk => ?_, fun s => rfl, fun out inc pos s k tags spindles hk => ?_⟩
  · intro u t made pos conflict v
    obtain ⟨other, taken⟩ := spliceInput_cases level u
    refine ⟨fun h => event_of_eq (other h), fun h hk hout hinc => ?_⟩
    obtain ⟨clear, conflicts⟩ := spliceDone_cases (s := t) hk out inc
    exact ⟨fun hc => event_of_eq ((taken out inc h hout hinc).trans (clear hc)),
      fun hc => event_of_eq ((taken out inc h hout hinc).trans (conflicts hc))⟩
  · obtain ⟨core, feeds⟩ := swapRolls_spindles s spindles
    rw [exchangeRolls_eq]
    exact ⟨swapRolls_rolls s tags, congrArg Spindle.state core, congrArg Spindle.state feeds, rfl, rfl, rfl, rfl, rfl, rfl, rfl, rfl,
      rfl, rfl, rfl, rfl, rfl⟩
  · intro u reached t
    refine ⟨fun ⟨pressing, set, late⟩ => event_of_eq (if_pos ((pressDue_iff u).2 ⟨pressing, d, set, late⟩)),
      fun early => event_of_eq (if_neg fun due => ?_)⟩
    obtain ⟨pressing, d', set, late⟩ := (pressDue_iff u).1 due
    rcases early with idle | unset | ⟨set', early⟩
    · exact idle pressing
    · cases set.symm.trans unset
    · cases set.symm.trans set'
      exact Nat.not_le.2 early late
  · rw [closePress_eq]
    refine ⟨fun inc hinc => returnIncoming_some hinc, fun none => ?_, rfl, rfl, rfl, rfl, rfl, rfl, rfl, rfl, rfl, rfl, rfl, ?_, rfl⟩
    · rw [returnIncoming_none none]
      exact ⟨rfl, fun i => rfl⟩
    · simp only [moving_eq, Bool.and_eq_true, Bool.not_eq_true', decide_eq_true_eq]
      exact ⟨fun ⟨⟨moves, opened⟩, runs⟩ => ⟨runs, opened, moves⟩, fun ⟨runs, opened, moves⟩ => ⟨⟨moves, opened⟩, runs⟩⟩
  · rw [spliceFaultAnswer, hinc, hout]
    rfl
  · intro conflict figures
    obtain ⟨conflicts, clear⟩ := spliceMadeAnswer_cases (inc := inc) pos hr
    rw [spliceConflict_iff hk] at conflicts clear
    exact ⟨clear, conflicts⟩
  · obtain ⟨core, feeds⟩ := swapRolls_spindles s spindles
    have point := atSplicePoint_iff (s := swapRolls out inc s) (by rw [swapRolls_line]; exact hk)
    rw [exchangeRolls_eq]
    refine ⟨rfl, rfl, point, fun r hr alone => ?_, core, feeds, rfl, rfl⟩
    have running := swapRolls_running s tags hr alone
    refine ⟨running, point.trans ?_⟩
    rw [running]
    refine ⟨?_, fun near => ⟨_, rfl, near⟩⟩
    rintro ⟨_, same, near⟩
    cases same
    exact near

end Sys2Proof.Machine


/-! ### Return slots and the posts that wait for them (O7) -/

namespace Sys2Proof.Machine

/-- A byte read alone. -/
theorem load_one (s : State) (a : Nat) : s.load [a] = if faultsAt s.bus.reads a then none else some [s.mem.read a] := by
  simp only [State.load, Option.map_some]

/-- R172: a byte read alone faults, or is one byte. -/
theorem load_one_cases (s : State) (a : Nat) : s.load [a] = none ∨ ∃ b, s.load [a] = some [b] := by
  rw [load_one]
  split
  · exact .inl rfl
  · exact .inr ⟨_, rfl⟩

section Examination

variable {s : State} {r : Ring} (hs : s.port.state = .ready) (hr : s.port.ret = some r)
include hs hr

theorem readReturn_ready : readReturn s = if (s.load [r.addr + 8 * r.pos + 4]).isNone then ringFault true r.pos s else s := by
  simp only [readReturn, hs, hr]

/-- R172: a return slot that does not read is a ring fault, whatever waits to be posted. -/
theorem postItems_of_fault (h : s.load [r.addr + 8 * r.pos + 4] = none) (l : List PostItem) :
    postItems l s = ringFault true r.pos s := by
  cases l with
  | nil => exact (readReturn_ready (s := { s with port.posting := [] }) hs hr).trans (if_pos (Option.isNone_iff_eq_none.2 h))
  | cons it rest => simp only [postItems, hs, hr, h]

theorem postItems_nil {b : Byte} (h : s.load [r.addr + 8 * r.pos + 4] = some [b]) :
    postItems [] s = { s with port.posting := [] } :=
  (readReturn_ready (s := { s with port.posting := [] }) hs hr).trans
    (if_neg fun none => by cases h.symm.trans (Option.isNone_iff_eq_none.1 none))

/-- R171: in a slot that is not FREE nothing is posted. -/
theorem postItems_of_occupied {b : Byte} (h : s.load [r.addr + 8 * r.pos + 4] = some [b]) (hb : b ≠ 0) (l : List PostItem) :
    postItems l s = { s with port.posting := l } := by
  cases l with
  | nil => exact postItems_nil hs hr h
  | cons it rest => simp only [postItems, hs, hr, h, if_neg hb]

variable {it : PostItem} {rest : List PostItem} (h : s.load [r.addr + 8 * r.pos + 4] = some [0])
include h

theorem postItems_cons_of_free (hw : s.storeOk (slotBytes (r.addr + 8 * r.pos) it) = true) :
    postItems (it :: rest) s = postItems rest (posted it r (s.store (slotBytes (r.addr + 8 * r.pos) it))) := by
  simp only [postItems, hs, hr, h, hw, if_true]

theorem postItems_cons_of_lost (hw : s.storeOk (slotBytes (r.addr + 8 * r.pos) it) = false) :
    postItems (it :: rest) s = ringFault true r.pos (s.store (slotBytes (r.addr + 8 * r.pos) it)) := by
  simp only [postItems, hs, hr, h, hw, Bool.false_eq_true, if_true, if_false]

end Examination

/-- R171: with the port not READY no return slot is examined. -/
theorem examineReturn_of_not_ready {s : State} (h : s.port.state ≠ .ready) : examineReturn s = s := by
  unfold examineReturn
  cases hp : s.port.posting with
  | nil =>
    have same : s = { s with port.posting := [] } := by rw [← hp]
    unfold postItems readReturn
    rw [← same]
    split
    next hs _ => exact absurd hs h
    next => rfl
  | cons it rest =>
    unfold postItems
    split
    next hs _ => exact absurd hs h
    next => rfl

theorem posted_state (it : PostItem) (r : Ring) (s : State) : (posted it r s).port.state = s.port.state := by
  rw [posted]
  cases it.last <;> rfl

theorem posted_ret (it : PostItem) (r : Ring) (s : State) :
    (posted it r s).port.ret = some { r with pos := (r.pos + 1) % r.count } := by
  rw [posted]
  cases it.last <;> rfl

/-- R171: a READY port posts the completions it is given, whatever its record of those waiting says meanwhile. -/
theorem postItems_setPosting (l p : List PostItem) {s : State} {r : Ring} (hs : s.port.state = .ready) (hr : s.port.ret = some r) :
    postItems l { s with port.posting := p } = postItems l s := by
  induction l generalizing s r with
  | nil => rfl
  | cons it rest ih =>
    rcases load_one_cases s (r.addr + 8 * r.pos + 4) with h | ⟨b, h⟩
    · exact (postItems_of_fault (s := { s with port.posting := p }) hs hr h _).trans (postItems_of_fault hs hr h _).symm
    by_cases hb : b = 0
    · subst hb
      cases hw : s.storeOk (slotBytes (r.addr + 8 * r.pos) it) with
      | false =>
        exact (postItems_cons_of_lost (s := { s with port.posting := p }) hs hr h hw).trans
          (postItems_cons_of_lost hs hr h hw).symm
      | true =>
        have moved : posted it r (State.store { s with port.posting := p } (slotBytes (r.addr + 8 * r.pos) it)) =
            { posted it r (s.store (slotBytes (r.addr + 8 * r.pos) it)) with port.posting := p } := by
          rw [posted, posted]
          cases it.last <;> rfl
        rw [postItems_cons_of_free (s := { s with port.posting := p }) hs hr h hw, postItems_cons_of_free hs hr h hw, moved]
        exact ih ((posted_state _ _ _).trans hs) (posted_ret _ _ _)
    · exact (postItems_of_occupied (s := { s with port.posting := p }) hs hr h hb _).trans
        (postItems_of_occupied hs hr h hb _).symm

/-- R171: a free return slot takes the oldest waiting completion, and the next slot is examined for those left. -/
theorem examineReturn_of_free {s : State} {r : Ring} {it : PostItem} {rest : List PostItem} (hs : s.port.state = .ready)
    (hr : s.port.ret = some r) (hp : s.port.posting = it :: rest) (h : s.load [r.addr + 8 * r.pos + 4] = some [0])
    (hw : s.storeOk (slotBytes (r.addr + 8 * r.pos) it) = true) :
    examineReturn s =
      examineReturn (posted it r { s.store (slotBytes (r.addr + 8 * r.pos) it) with port.posting := rest }) := by
  have left : (posted it r { s.store (slotBytes (r.addr + 8 * r.pos) it) with port.posting := rest }).port.posting = rest := by
    rw [posted]
    cases it.last <;> rfl
  have moved : posted it r { s.store (slotBytes (r.addr + 8 * r.pos) it) with port.posting := rest } =
      { posted it r (s.store (slotBytes (r.addr + 8 * r.pos) it)) with port.posting := rest } := by
    rw [posted, posted]
    cases it.last <;> rfl
  rw [examineReturn, hp, postItems_cons_of_free hs hr h hw, examineReturn, left, moved]
  exact (postItems_setPosting rest rest (s := posted it r (s.store _)) ((posted_state _ _ _).trans hs) (posted_ret _ _ _)).symm

/-- A record set to what it holds is the state itself. -/
theorem setPosting_self {s : State} {l : List PostItem} (h : s.port.posting = l) : { s with port.posting := l } = s := by rw [← h]

/-- R171: a return slot that is not FREE keeps the posts waiting. -/
theorem examineReturn_of_occupied {s : State} {r : Ring} {b : Byte} (hs : s.port.state = .ready) (hr : s.port.ret = some r)
    (h : s.load [r.addr + 8 * r.pos + 4] = some [b]) (hb : b ≠ 0) : examineReturn s = s :=
  (postItems_of_occupied hs hr h hb _).trans (setPosting_self rfl)

/-- R168: an entry is in the table under its place in arrival order. -/
theorem holdsEntry_iff (s : State) (no : Nat) : s.holdsEntry no = true ↔ ∃ y ∈ s.port.table, y.no = no := by
  simp only [State.holdsEntry, State.entry, List.find?_isSome, beq_iff_eq]

theorem setStage_eq (no : Nat) (st : Stage) (s : State) : setStage no st s = { s with
    port.table := s.port.table.map (fun y => if y.no = no then { y with stage := st } else y) } := by
  simp only [setStage, State.mapEntry, beq_iff_eq]

theorem freeEntry_eq (no : Nat) (s : State) : freeEntry no s = { s with
    port.table := s.port.table.filter (fun y => y.no ≠ no)
    port.scan := if s.port.scan = .suspended then .active else s.port.scan } := by
  have differ : (fun y : Entry => y.no != no) = fun y => decide (y.no ≠ no) := by
    funext y
    exact Bool.eq_iff_iff.2 (by simp only [bne_iff_ne, decide_eq_true_eq])
  rw [freeEntry, differ]

/-- R171: posts that join those waiting, while their entry is held and once a ring fault has dropped it (R172). -/
theorem enqueue_eq (no : Nat) (items : List PostItem) (s : State) : enqueue no items s = if s.holdsEntry no then
    examineReturn { setStage no .posting s with port.posting := s.port.posting ++ items } else s := rfl

theorem enqueue_of_dropped {no : Nat} {s : State} (h : s.holdsEntry no = false) (items : List PostItem) : enqueue no items s = s := by
  rw [enqueue_eq, h]
  rfl

/-- R171: the bytes of a return slot, the state last. -/
theorem slotBytes_eq (a : Nat) (it : PostItem) : slotBytes a it = [(a, b8 it.block), (a + 1, b8 (it.block / 2 ^ 8)),
    (a + 2, b8 (it.block / 2 ^ 16)), (a + 3, b8 (it.block / 2 ^ 24)), (a + 5, b8 it.code), (a + 6, 0), (a + 7, 0),
    (a + 4, if it.result = true then 2 else 1)] := by
  simp only [slotBytes, le, leBytes_four, spread, List.cons_append, List.nil_append, Nat.div_div_eq_div_mul]
  rfl

/-- Settles O7: the examination by the slot's state byte, a post by its equation, and the table's records by theirs. -/
theorem postsGoOutInOrder : Obligations.PostsGoOutInOrder := by
  refine ⟨fun s r hs hr => ⟨fun h => postItems_of_fault hs hr h _, fun hp b h => ?_,
      fun it rest hp => ⟨?_, fun h => ⟨?_, ?_⟩⟩⟩,
    fun no items s => ⟨fun held => ?_, fun gone => enqueue_of_dropped ?_ items⟩, fun no s => ⟨fun h => ?_, fun h => ?_⟩,
    slotBytes_eq, fun no target c s => ⟨rfl, rfl⟩⟩
  · rw [examineReturn, hp, postItems_nil hs hr h, setPosting_self hp]
  · exact fun b h hb => examineReturn_of_occupied hs hr h hb
  · exact fun hw => examineReturn_of_free hs hr hp h hw
  · intro hw
    rw [examineReturn, hp]
    exact postItems_cons_of_lost hs hr h hw
  · rw [enqueue_eq, if_pos ((holdsEntry_iff s no).2 held), setStage_eq]
    exact ⟨rfl, fun r b hs hr h hb => examineReturn_of_occupied hs hr h hb, fun h => examineReturn_of_not_ready h⟩
  · rw [← Bool.not_eq_true, holdsEntry_iff]
    exact fun ⟨y, hy, hno⟩ => gone y hy hno
  · rw [freeEntry_eq, if_pos h]
  · rw [freeEntry_eq, if_neg h]

end Sys2Proof.Machine


/-! ### One examination of the outbound ring, and the search of it (O8, O9, O10) -/

namespace Sys2Proof.Machine

/-- R165: the slot the scan examines next. -/
def State.scanSlot (s : State) (r : Ring) : Nat := (r.pos + 1 + s.port.examined) % r.count

section Scan

variable {s : State} {r : Ring} (ready : s.port.state = .ready) (active : s.port.scan = .active) (out : s.port.out = some r)
include ready active out

theorem examineSlot_of_fault (h : s.load (addrs (r.addr + 8 * s.scanSlot r) 8) = none) :
    examineSlot s = ringFault false (s.scanSlot r) s := by
  have unread : s.readSlot (r.addr + 8 * ((r.pos + 1 + s.port.examined) % r.count)) = none := Option.map_eq_none_iff.2 h
  simp only [examineSlot, ready, active, out, unread]
  rfl

theorem examineSlot_of_slot {block st : Nat} (h : s.readSlot (r.addr + 8 * s.scanSlot r) = some (block, st)) : examineSlot s =
    if st = 1 ∨ st = 2 then
      if 16 ≤ s.port.table.length then { s with port.scan := .suspended } else takeSlot r (s.scanSlot r) block (st == 2) s
    else passSlot r s := by
  have read : s.readSlot (r.addr + 8 * ((r.pos + 1 + s.port.examined) % r.count)) = some (block, st) := h
  simp only [examineSlot, ready, active, out, read]
  rfl

/-- R165: a POSTED or an ABORT slot, with a place free in the table, is taken. -/
theorem examineSlot_takes {block st : Nat} (h : s.readSlot (r.addr + 8 * s.scanSlot r) = some (block, st)) (hst : st = 1 ∨ st = 2)
    (room : s.port.table.length < 16) : examineSlot s = takeSlot r (s.scanSlot r) block (st == 2) s := by
  rw [examineSlot_of_slot ready active out h, if_pos hst, if_neg (Nat.not_le.2 room)]

end Scan

theorem takeSlot_of_lost {r : Ring} {i : Nat} {s : State} (h : s.storeOk [(r.addr + 8 * i + 4, 0)] = false) (block : Nat)
    (abort : Bool) : takeSlot r i block abort s = ringFault false i s := by
  simp only [takeSlot, h, Bool.false_eq_true, if_false]

/-- R165: a slot written FREE and its entry in the table, before anything else is done about it. -/
def slotTaken (r : Ring) (i block : Nat) (abort : Bool) (s : State) : State :=
  enterEntry block abort { s.store [(r.addr + 8 * i + 4, 0)] with port.out := some { r with pos := i }, port.examined := 0 }

theorem takeSlot_of_written {r : Ring} {i : Nat} {s : State} (h : s.storeOk [(r.addr + 8 * i + 4, 0)] = true) (block : Nat)
    (abort : Bool) : takeSlot r i block abort s =
      if abort then decideAbort s.port.nextNo block { r with pos := i } (slotTaken r i block abort s)
      else if s.holdsBlock block then concludeDuplicate s.port.nextNo block (slotTaken r i block abort s)
      else slotTaken r i block abort s := by
  simp only [takeSlot, h, if_true, slotTaken]

/-! #### The search of the ring (R173) -/

/-- R173, step 3: a slot that reads and is not POSTED with the target's block. -/
def State.slotOfOther (s : State) (r : Ring) (target i : Nat) : Prop :=
  ∃ block st, s.readSlot (r.addr + 8 * i) = some (block, st) ∧ ¬ (st = 1 ∧ block = target)

/-- R173, step 3: the slots of the ring, once round from the one after the abort's (log entry 21). -/
def Ring.fromPos (r : Ring) : List Nat := (List.range r.count).map (fun i => (r.pos + 1 + i) % r.count)

section Search

variable {no target : Nat} {r : Ring} {s : State}

theorem searchRing_skip {before : List Nat} (h : ∀ i ∈ before, s.slotOfOther r target i) (rest : List Nat) :
    searchRing no target r (before ++ rest) s = searchRing no target r rest s := by
  induction before with
  | nil => rfl
  | cons i before ih =>
    obtain ⟨block, st, read, other⟩ := h i List.mem_cons_self
    simp only [List.cons_append, searchRing, read, if_neg other]
    exact ih fun j hj => h j (List.mem_cons_of_mem _ hj)

theorem searchRing_of_fault {i : Nat} (h : s.readSlot (r.addr + 8 * i) = none) (rest : List Nat) :
    searchRing no target r (i :: rest) s = ringFault false i s := by
  simp only [searchRing, h]

theorem searchRing_of_lost {i : Nat} (h : s.readSlot (r.addr + 8 * i) = some (target, 1))
    (hw : s.storeOk [(r.addr + 8 * i + 4, 0)] = false) (rest : List Nat) :
    searchRing no target r (i :: rest) s = ringFault false i s := by
  simp only [searchRing, h, hw, and_self, if_true, Bool.false_eq_true, if_false]

theorem searchRing_of_found {i : Nat} (h : s.readSlot (r.addr + 8 * i) = some (target, 1))
    (hw : s.storeOk [(r.addr + 8 * i + 4, 0)] = true) (rest : List Nat) :
    searchRing no target r (i :: rest) s = enqueue no
      [⟨no, false, Code.aborted.value, target, false⟩, ⟨no, true, Code.found.value, target, true⟩]
      ((s.store [(r.addr + 8 * i + 4, 0)]).store [(target + 3, b8 Code.aborted.value)]) := by
  simp only [searchRing, h, hw, and_self, if_true]

/-- The search passes the first `n` slots of the round when none of them is the target's. -/
theorem searchRing_reaches {n : Nat} (hn : n < r.count) (h : ∀ j, j < n → s.slotOfOther r target ((r.pos + 1 + j) % r.count)) :
    ∃ rest, searchRing no target r r.fromPos s = searchRing no target r ((r.pos + 1 + n) % r.count :: rest) s := by
  obtain ⟨k, hk⟩ := Nat.exists_eq_add_of_lt hn
  have split : List.range r.count = List.range n ++ n :: (List.range k).map (fun j => n + (j + 1)) := by
    rw [hk, Nat.add_assoc, List.range_add, List.range_succ_eq_map, List.map_cons, List.map_map]
    rfl
  rw [Ring.fromPos, split, List.map_append, List.map_cons]
  refine ⟨_, searchRing_skip (fun i hi => ?_) _⟩
  obtain ⟨j, hj, rfl⟩ := List.mem_map.1 hi
  exact h j (List.mem_range.1 hj)

/-- R173, step 4: no slot of the round is the target's. -/
theorem searchRing_of_others (h : ∀ j, j < r.count → s.slotOfOther r target ((r.pos + 1 + j) % r.count)) :
    searchRing no target r r.fromPos s = abortResult no .notFound target s := by
  rw [← List.append_nil r.fromPos, searchRing_skip]
  · rfl
  · intro i hi
    obtain ⟨j, hj, rfl⟩ := List.mem_map.1 hi
    exact h j (List.mem_range.1 hj)

/-- R173, step 3: an abort whose target no entry holds searches the ring. -/
theorem decideAbort_searches (h : s.port.table.any (fun y => !y.abort && y.block == target) = false) :
    decideAbort no target r s = searchRing no target r r.fromPos s := by
  have none : s.port.table.find? (fun y => !y.abort && y.block == target && y.stage != .posting) = none := by
    rw [List.find?_eq_none]
    intro y hy mine
    rw [List.any_eq_false] at h
    exact h y hy (Bool.and_eq_true_iff.1 mine).1
  simp only [decideAbort, none, h, Bool.false_eq_true, if_false]
  rfl

end Search

/-! #### Ring faults (O9) -/

/-- R172, R175: after a ring fault no entry is in the table. -/
theorem ringFault_holdsEntry (ret : Bool) (i no : Nat) (s : State) : (ringFault ret i s).holdsEntry no = false := rfl

/-- Settles O9: an examination and a search end in a ring fault by the slot that does not read or is not written; what a ring fault
leaves is its definition, and with an empty table nothing is held. -/
theorem ringFaultsDropRequests : Obligations.RingFaultsDropRequests := by
  refine ⟨fun e s r ready active out => ⟨fun h => ?_, fun block st read hst room lost => ?_⟩,
    fun no target r s n absent hn others => ?_, fun ret i s => rfl,
    fun ret i no s => ⟨ringFault_holdsEntry ret i no s, fun a => rfl, enqueue_of_dropped (ringFault_holdsEntry ret i no s), rfl⟩,
    fun no s => holdsEntry_iff s no⟩
  · exact event_of_eq (examineSlot_of_fault ready active out h)
  · exact event_of_eq ((examineSlot_takes ready active out read hst room).trans (takeSlot_of_lost lost block _))
  · obtain ⟨rest, reached⟩ := searchRing_reaches (no := no) hn others
    have searched := (decideAbort_searches (no := no) (r := r) absent).trans reached
    exact ⟨fun h => searched.trans (searchRing_of_fault h rest), fun h lost => searched.trans (searchRing_of_lost h lost rest)⟩

/-! #### The scan (O8) -/

/-- R165: a slot passed, by what is left of the round and the rescan mark. -/
theorem passSlot_cases (r : Ring) (s : State) :
    (s.port.examined + 1 < r.count → passSlot r s = { s with port.examined := s.port.examined + 1 }) ∧
    (r.count ≤ s.port.examined + 1 → s.port.rescan = true → passSlot r s = { s with port.examined := 0, port.rescan := false }) ∧
    (r.count ≤ s.port.examined + 1 → s.port.rescan = false → passSlot r s = { s with port.examined := 0, port.scan := .idle }) := by
  refine ⟨fun h => if_pos h, fun h mark => ?_, fun h mark => ?_⟩
  · rw [passSlot, if_neg (Nat.not_lt.2 h), if_pos mark]
  · rw [passSlot, if_neg (Nat.not_lt.2 h), if_neg (by rw [mark]; decide)]

/-- Settles O8: the examination by the slot's state, and the slot taken by whether it is an ABORT and whether its block is held. -/
theorem scanTakesPostedSlots : Obligations.ScanTakesPostedSlots := by
  intro e s r block st u i a took holds ready active out read
  have examined := examineSlot_of_slot ready active out read
  have passed : st ≠ 1 → st ≠ 2 → examineSlot u = passSlot r u := fun h1 h2 =>
    examined.trans (if_neg fun h => h.elim h1 h2)
  obtain ⟨goesOn, again, ends⟩ := passSlot_cases r u
  refine ⟨fun h1 h2 more => event_of_eq ((passed h1 h2).trans (goesOn more)),
    fun h1 h2 round mark => event_of_eq ((passed h1 h2).trans (again round mark)),
    fun h1 h2 round mark => event_of_eq ((passed h1 h2).trans (ends round mark)),
    fun hst full => event_of_eq ((examined.trans (if_pos hst)).trans (if_pos full)), fun room written => ?_⟩
  have taken : ∀ hst : st = 1 ∨ st = 2, examineSlot u = _ := fun hst =>
    (examineSlot_takes ready active out read hst room).trans (takeSlot_of_written written block (st == 2))
  refine ⟨fun h1 free => event_of_eq ?_, fun h1 held => event_of_eq ?_, fun h2 => event_of_eq ?_⟩
  · subst h1
    exact (taken (.inl rfl)).trans (if_neg (Bool.eq_false_iff.1 free))
  · subst h1
    exact (taken (.inl rfl)).trans (if_pos held)
  · subst h2
    exact taken (.inr rfl)

end Sys2Proof.Machine


/-! ### Aborts (O10) -/

namespace Sys2Proof.Machine

/-- R169: where nothing frees nothing is retried. -/
theorem retryFor_freesNothing (s : State) : retryFor freesNothing s = s := by
  have none : s.waitingFor freesNothing = [] := by
    rw [State.waitingFor, List.map_eq_nil_iff, List.filter_eq_nil_iff]
    intro y _
    split
    · exact Bool.false_ne_true
    · exact Bool.false_ne_true
  rw [retryFor, none]
  rfl

section Held

variable {no target : Nat} {r : Ring} {s t : State} {x : Entry}
  (found : s.port.table.find? (fun y => !y.abort && y.block == target && y.stage != .posting) = some x)
include found

theorem decideAbort_of_some {frees : Await → Bool} (h : abortHeld x s = some (t, frees)) :
    decideAbort no target r s = retryFor frees (abortResult no .found target t) := by
  simp only [decideAbort, found, h]

theorem decideAbort_of_ended (h : abortHeld x s = some (t, freesNothing)) :
    decideAbort no target r s = abortResult no .found target t :=
  (decideAbort_of_some found h).trans (retryFor_freesNothing _)

theorem decideAbort_of_none (h : abortHeld x s = none) : decideAbort no target r s = abortResult no .notAbortable target s := by
  simp only [decideAbort, found, h]

end Held

theorem abortHeld_running {x : Entry} {s : State} {q : Req} {c : Call} (hx : x.stage = .running) (hq : x.req = some (q, c)) :
    abortHeld x s = abortRunning x.no c s := by
  simp only [abortHeld, hx, hq]

/-- R173, step 2: a target in POSTING is complete. -/
theorem decideAbort_of_posting {no target : Nat} {r : Ring} {s : State}
    (held : s.port.table.any (fun y => !y.abort && y.block == target) = true)
    (h : ∀ y ∈ s.port.table, (!y.abort && y.block == target) = true → y.stage = .posting) :
    decideAbort no target r s = abortResult no .notFound target s := by
  have none : s.port.table.find? (fun y => !y.abort && y.block == target && y.stage != .posting) = none := by
    rw [List.find?_eq_none]
    intro y hy mine
    obtain ⟨mine, going⟩ := Bool.and_eq_true_iff.1 mine
    exact bne_iff_ne.1 going (h y hy mine)
  simp only [decideAbort, none, held, if_true]

/-! #### Requests abandoned by their owners (R174) -/

section Owners

variable {no : Nat} {s : State} {f : Fetch}

theorem abortFetch_of_a (hb : s.lib.bufA = some f) (hf : f.entry = no) :
    abortFetch no s = (conclude no (abortedAnswer 3)
      { s with lib.bufA := none, lib.slots := s.lib.slots.modify f.slot (fun y => { y with busy := false }) },
      freesFetch f.slot) := by
  have serves : s.bufferOf no = some .a := by simp only [State.bufferOf, hb, Option.any_some, hf, beq_self_eq_true, if_true]
  simp only [abortFetch, serves, State.buffer, hb, releaseFetch, State.mapSlot]

theorem abortFetch_of_b (ha : ∀ g, s.lib.bufA = some g → g.entry ≠ no) (hb : s.lib.bufB = some f) (hf : f.entry = no) :
    abortFetch no s = (conclude no (abortedAnswer 3)
      { s with lib.bufB := none, lib.slots := s.lib.slots.modify f.slot (fun y => { y with busy := false }) },
      freesFetch f.slot) := by
  have other : s.lib.bufA.any (fun g => g.entry == no) = false := by
    rw [Option.any_eq_false]
    exact fun g hg => by simpa using ha g hg
  have serves : s.bufferOf no = some .b := by
    simp only [State.bufferOf, other, hb, Option.any_some, hf, beq_self_eq_true, if_true, Bool.false_eq_true, if_false]
  simp only [abortFetch, serves, State.buffer, hb, releaseFetch, State.mapSlot]

theorem abortRetire_eq (no : Nat) (s : State) : abortRetire no s = conclude no (abortedAnswer 3)
    { s with lib.slots := s.lib.slots.map (fun y => if y.watch = some no then { y with state := .active, watch := none } else y) } := by
  simp only [abortRetire, beq_iff_eq]

theorem abortNotify_of_watch {o : Order} (h : s.orders.find? (fun y => y.watch == some no) = some o) :
    abortNotify no s = conclude no { abortedAnswer 3 with params := [(0x10, o.counts)] }
      (s.mapOrder o.tag (fun y => { y with watch := none })) := by
  simp only [abortNotify, h]
  rfl

theorem abortRollRetire_eq (no : Nat) (s : State) : abortRollRetire no s = conclude no (abortedAnswer 3)
    { s with turret.rolls := s.turret.rolls.map (fun y => if y.watch = some no then { y with watch := none } else y) } := by
  simp only [abortRollRetire, beq_iff_eq]

/-- R130: the completion of the Start leaves the line where it was, and its state says where it goes. -/
theorem abortOfStart_cases (no : Nat) (s : State) :
    (s.line.state = .starting →
      abortOfStart no s = lineTo .standby (conclude no (abortedAnswer 3) { s with line.startWatch := none })) ∧
    (s.line.state ≠ .starting → abortOfStart no s =
      { conclude no (abortedAnswer 3) { s with line.startWatch := none } with line.deadline := none }) := by
  have line := (conclude_line no (abortedAnswer 3) { s with line.startWatch := none }).1
  refine ⟨fun h => (if_pos (line.trans h)).trans (enterLine_elsewhere (by decide) _), fun h => if_neg (fun l => h (line.symm.trans l))⟩

theorem abortAlign_of_some {a : Align} (h : s.head.align = some a) :
    abortAlign s = finishAlign a (abortedAnswer 3) { s with head.aligned := false } := by
  simp only [abortAlign, h, misalign]

theorem abortRunning_spliceNow (no : Nat) (s : State) :
    (s.turret.seq ≠ .pressing → abortRunning no .spliceNow s = some (abortSpliceNow no s, freesNothing)) ∧
    (s.turret.seq = .pressing → abortRunning no .spliceNow s = none) :=
  ⟨fun h => if_neg h, fun h => if_pos h⟩

end Owners

/-- Settles O10: a held target by its stage and, RUNNING, by its owner; one that is not held by the search of the ring. -/
theorem abortsByTheTargetsStage : Obligations.AbortsByTheTargetsStage := by
  refine ⟨fun no target r s x found => ?_, fun no target r s => ⟨decideAbort_of_posting, fun absent others => ?_,
    fun n absent hn others named written => ?_⟩⟩
  · intro aborted ended
    refine ⟨fun hx => decideAbort_of_ended found (by simp only [abortHeld, hx]; rfl),
      fun w hx => decideAbort_of_ended found (by simp only [abortHeld, hx]; rfl), fun q c hx hq => ?_⟩
    have running := abortHeld_running (s := s) hx hq
    have ends : ∀ {t u}, abortRunning x.no c s = some (u, freesNothing) → u = t → ended t := fun h same =>
      same ▸ decideAbort_of_ended found (running.trans h)
    refine ⟨fun f hc hb hf => ?_, fun f hc ha hb hf => ?_, ?_, ?_, ?_, ?_, ?_, ?_, ?_, ?_⟩
    · refine decideAbort_of_some found (running.trans ?_)
      rcases hc with rfl | rfl <;> exact congrArg some (abortFetch_of_a hb hf)
    · refine decideAbort_of_some found (running.trans ?_)
      rcases hc with rfl | rfl <;> exact congrArg some (abortFetch_of_b ha hb hf)
    · rintro rfl
      exact ends rfl (abortRetire_eq x.no s)
    · rintro a o rfl ho
      exact ends rfl (abortNotify_of_watch ho)
    · rintro rfl
      exact ends rfl (abortRollRetire_eq x.no s)
    · rintro rfl
      exact ends rfl rfl
    · rintro rfl
      obtain ⟨starting, elsewhere⟩ := abortOfStart_cases x.no s
      exact ⟨fun h => ends rfl (starting h),
        fun h => ends rfl (elsewhere h)⟩
    · rintro a rfl ha
      exact ends rfl (abortAlign_of_some ha)
    · rintro rfl h
      exact ends ((abortRunning_spliceNow x.no s).1 h) rfl
    · rintro (⟨b, rfl⟩ | ⟨rfl, h⟩)
      · exact decideAbort_of_none found running
      · exact decideAbort_of_none found (running.trans ((abortRunning_spliceNow x.no s).2 h))
  · exact (decideAbort_searches absent).trans (searchRing_of_others others)
  · obtain ⟨rest, reached⟩ := searchRing_reaches (no := no) hn others
    exact ((decideAbort_searches absent).trans reached).trans (searchRing_of_found named written rest)

end Sys2Proof.Machine


/-! ### Retries of the requests that wait (O12) -/

namespace Sys2Proof.Machine

/-- R169: the requests that wait for what frees, by their entries. -/
theorem mem_waitingFor (p : Await → Bool) (s : State) (n : Nat) :
    n ∈ s.waitingFor p ↔ ∃ y ∈ s.port.table, y.no = n ∧ ∃ w, y.stage = .waiting w ∧ p w = true := by
  have waits : ∀ y : Entry, (match y.stage with | .waiting w => p w | _ => false) = true ↔
      ∃ w, y.stage = .waiting w ∧ p w = true := by
    intro y
    split
    next w hw =>
      refine ⟨fun h => ⟨w, hw, h⟩, fun ⟨v, hv, h⟩ => ?_⟩
      cases hw.symm.trans hv
      exact h
    next stays => exact ⟨fun h => absurd h Bool.false_ne_true, fun ⟨w, hw, _⟩ => absurd hw (stays w)⟩
  rw [State.waitingFor, List.mem_map]
  refine exists_congr fun y => ?_
  rw [List.mem_filter, and_assoc, and_comm (a := y.no = n)]
  exact and_congr_right' (and_congr_left' (waits y))

/-- R169: they are retried in arrival order. -/
theorem waitingFor_pairwise {s : State} (h : (s.port.table.map Entry.no).Pairwise (· < ·)) (p : Await → Bool) :
    (s.waitingFor p).Pairwise (· < ·) :=
  h.sublist (List.filter_sublist.map Entry.no)

/-- R169: a retry decides a request that waits still, and leaves any other alone. -/
theorem redecide_cases {no : Nat} {s : State} {y : Entry} (h : s.entry no = some y) :
    (∀ w q c, y.stage = .waiting w → y.req = some (q, c) → redecide s no = decideCall no q c s) ∧
    ((∀ w, y.stage ≠ .waiting w) → redecide s no = s) := by
  refine ⟨fun w q c hw hq => by simp only [redecide, h, hw, hq], fun stays => ?_⟩
  simp only [redecide, h]
  split
  next w _ _ hw _ => exact absurd hw (stays w)
  next => rfl

theorem holdWaiting_order (no : Nat) (w : Await) (s : State) :
    (holdWaiting no w s).port.table.map Entry.no = s.port.table.map Entry.no := by
  rw [holdWaiting, setStage_eq, List.map_map]
  refine List.map_congr_left fun y _ => ?_
  rw [Function.comp_apply]
  split <;> rfl

theorem freesFetch_iff (n : Nat) (w : Await) : freesFetch n w = true ↔ w = .slot n ∨ w = .buffers := by
  cases w with
  | slot m => simp only [freesFetch, beq_iff_eq, Await.slot.injEq, reduceCtorEq, or_false]
  | buffers => simp only [freesFetch, reduceCtorEq, or_true]
  | roll t => simp only [freesFetch, Bool.false_eq_true, reduceCtorEq, or_self]

theorem freesRolls_iff (a b : Option PressRoll) (t : Nat) :
    freesRolls a b (.roll t) = true ↔ (∃ p, a = some p ∧ p.tag = t) ∨ ∃ p, b = some p ∧ p.tag = t := by
  simp only [freesRolls, Bool.or_eq_true, Option.any_eq_true, beq_iff_eq]

/-- Settles O12: the retries by their order and by what each decides; the six requests that may wait are decided, at their dispatch, by
the decision that a retry makes. -/
theorem waitingRequestsAreRetried : Obligations.WaitingRequestsAreRetried := by
  refine ⟨fun p s => ⟨rfl, fun h => waitingFor_pairwise h p, mem_waitingFor p s⟩, fun no s y h => redecide_cases h,
    holdWaiting_order, fun n t a b => ⟨freesFetch_iff n, freesRolls_iff a b t⟩, fun e q s x => ?_⟩
  intro decided
  exact ⟨fun h => exec_of_dispatches h rfl rfl rfl, fun h => exec_of_dispatches h rfl rfl rfl,
    fun h => exec_of_dispatches h rfl rfl rfl, fun a h => exec_of_dispatches h rfl rfl rfl,
    fun a h => exec_of_dispatches h rfl rfl rfl, fun h => exec_of_dispatches h rfl rfl rfl⟩

end Sys2Proof.Machine

/-! ### The reading of a taken block (O11) -/

namespace Sys2Proof.Machine

/-! #### The checks of the port (R166, R167) -/

section Admission

variable {no : Nat} {q : Req} {c : Call} {decision : State → State} {s : State}

theorem admitRequest_of_sense (h : senseOk q.sense.toNat = false) :
    admitRequest no q c decision s = concludeWith no q (refusal .badSenseLength Sense.none) s := by
  simp only [admitRequest, h, Bool.false_eq_true, not_false_eq_true, if_true]

variable (sense : senseOk q.sense.toNat = true)
include sense

theorem admitRequest_of_dataFail {a : Answer} (hc : callHasData c = true) (h : dataFail q.data = some a) :
    admitRequest no q c decision s = concludeWith no q a s := by
  simp only [admitRequest, sense, hc, h, not_true_eq_false, if_true, if_false]

theorem admitRequest_of_data (data : callHasData c = true → dataFail q.data = none) : admitRequest no q c decision s =
    if c = .awaitPanelExit ∧ 4 ≤ s.heldAwaits.length then
      concludeWith no q (refusal .limit (senseVals (s.heldAwaits.map (fun y => natVal y.block)))) s
    else decision (setReq no q c s) := by
  have passes : (if callHasData c = true then dataFail q.data else none) = none := by
    split
    next h => exact data h
    next => rfl
  simp only [admitRequest, sense, passes, not_true_eq_false, if_false]
  rfl

/-- R166, steps 7 and 8. -/
theorem admitRequest_cases (data : callHasData c = true → dataFail q.data = none) :
    (c = .awaitPanelExit → 4 ≤ s.heldAwaits.length → admitRequest no q c decision s =
      concludeWith no q (refusal .limit (senseVals (s.heldAwaits.map (fun y => natVal y.block)))) s) ∧
    ((c = .awaitPanelExit → s.heldAwaits.length < 4) → admitRequest no q c decision s = decision (setReq no q c s)) := by
  rw [admitRequest_of_data sense data]
  exact ⟨fun hc full => if_pos ⟨hc, full⟩, fun room => if_neg fun ⟨hc, full⟩ => Nat.not_lt.2 full (room hc)⟩

end Admission

/-! #### Data areas and segment lists (R167) -/

theorem readData_cases (h : Header) (s : State) :
    (¬ (kindHasData h.kind = true ∧ h.segmented = true) → s.readData h = .ok (.contiguous h.addr h.len)) ∧
    (kindHasData h.kind = true ∧ h.segmented = true →
      (h.len.toNat = 0 ∨ 16 < h.len.toNat →
        s.readData h = .error (refusal .segmentList (senseField lenField [natVal h.len.toNat]))) ∧
      (1 ≤ h.len.toNat → h.len.toNat ≤ 16 →
        (s.load (addrs h.addr.toNat (8 * h.len.toNat)) = none → s.readData h = .error (refusal .busFault Sense.none)) ∧
        ∀ bs, s.load (addrs h.addr.toNat (8 * h.len.toNat)) = some bs →
          s.readData h = .ok (.segmented (parseSegs bs h.len.toNat)))) := by
  have empty : h.len = 0 ↔ h.len.toNat = 0 := BitVec.toNat_eq
  refine ⟨fun plain => if_neg plain, fun listed => ⟨fun bad => ?_, fun h1 h2 => ?_⟩⟩
  · rw [State.readData, if_pos listed, if_pos (by rwa [empty])]
  · rw [State.readData, if_pos listed, if_neg (by rw [empty]; omega)]
    exact ⟨fun none => by rw [none], fun bs read => by rw [read]⟩

/-- R167: the first entry of length 0 is the one refused. -/
theorem dataFail_cases (gs : List DataSeg) (most : gs.length ≤ 16) :
    (1 ≤ gs.length → (∀ g ∈ gs, g.len ≠ 0) → dataFail (.segmented gs) = none) ∧
    (∀ before g after, gs = before ++ g :: after → (∀ y ∈ before, y.len ≠ 0) → g.len = 0 →
      dataFail (.segmented gs) = some (refusal .segmentList (senseVals [natVal before.length]))) := by
  refine ⟨fun least full => ?_, fun before g after split full zero => ?_⟩
  · have none : zeroSeg gs = none := List.findIdx?_eq_none_iff.2 fun g hg => beq_eq_false_iff_ne.2 (full g hg)
    rw [dataFail, if_neg (by omega), none]
    rfl
  · subst split
    have none : before.findIdx? (fun y => y.len == 0) = none :=
      List.findIdx?_eq_none_iff.2 fun y hy => beq_eq_false_iff_ne.2 (full y hy)
    have first : zeroSeg (before ++ g :: after) = some before.length := by
      rw [zeroSeg, List.findIdx?_append, none, List.findIdx?_cons, zero]
      simp
    rw [List.length_append, List.length_cons] at most
    rw [dataFail, if_neg (by rw [List.length_append, List.length_cons]; omega), first]
    rfl

/-! #### The taken entry of a block (log entry 6) -/

/-- R166: a taken entry of a block whose reading has not ended. -/
theorem takenEntry_test (block : Nat) (y : Entry) : (!y.abort && y.block == block && y.stage == .taken && y.req.isNone) = true ↔
    y.abort = false ∧ y.block = block ∧ y.stage = .taken ∧ y.req = none := by
  simp only [Bool.and_eq_true, Bool.not_eq_true', beq_iff_eq, Option.isNone_iff_eq_none, and_assoc]

theorem takenEntry_eq_none (block : Nat) (s : State) : s.takenEntry block = none ↔
    ∀ y ∈ s.port.table, ¬ (y.abort = false ∧ y.block = block ∧ y.stage = .taken ∧ y.req = none) := by
  simp only [State.takenEntry, List.find?_eq_none, takenEntry_test]

theorem takenEntry_first {block : Nat} {s : State} {before after : List Entry} {y : Entry}
    (split : s.port.table = before ++ y :: after)
    (others : ∀ z ∈ before, ¬ (z.abort = false ∧ z.block = block ∧ z.stage = .taken ∧ z.req = none))
    (mine : y.abort = false ∧ y.block = block ∧ y.stage = .taken ∧ y.req = none) : s.takenEntry block = some y := by
  have none : before.find? (fun z => !z.abort && z.block == block && z.stage == .taken && z.req.isNone) = none :=
    List.find?_eq_none.2 fun z hz h => others z hz ((takenEntry_test block z).1 h)
  rw [State.takenEntry, split, List.find?_append, none, Option.none_or]
  exact List.find?_cons_of_pos ((takenEntry_test block y).2 mine)

section Served

variable {s : State}

theorem blockRead_of_none {block : U32} (h : s.takenEntry block.toNat = none) : blockRead block s = s := by
  simp only [blockRead, h]

theorem blockRead_of_taken {block : U32} {x : Entry} (h : s.takenEntry block.toNat = some x) : blockRead block s = readBlock x s := by
  simp only [blockRead, h]

variable {q : Req} {c : Call} {decision : Nat → State → State}

theorem serve_of_none (h : s.takenEntry q.block.toNat = none) : serve q c decision s = s := by
  simp only [serve, h]

theorem serve_of_taken {x : Entry} (h : s.takenEntry q.block.toNat = some x) :
    serve q c decision s = admitRequest x.no q c (decision x.no) s := by
  simp only [serve, h]

end Served

/-! #### The block read from memory (R166) -/

theorem readBlock_of_fault {x : Entry} {s : State} (h : s.load (addrs x.block 32) = none) :
    readBlock x s = concludeUnread x.no x.block (refusal .busFault Sense.none) s := by
  simp only [readBlock, h]

section Reading

variable {x : Entry} {s : State} {bs : List Byte}

/-- R166: the request a header describes, before its data area is read. -/
def headerReq (block : Nat) (h : Header) : Req := ⟨BitVec.ofNat 32 block, h.sense, h.key, .contiguous h.addr h.len⟩

variable (head : s.load (addrs x.block 32) = some bs)
include head

theorem readBlock_of_sense (h : senseOk (parseHeader bs).sense.toNat = false) : readBlock x s =
    concludeWith x.no (headerReq x.block (parseHeader bs)) (refusal .badSenseLength Sense.none) s := by
  simp only [readBlock, head, h, Bool.false_eq_true, not_false_eq_true, if_true, headerReq]

variable (sense : senseOk (parseHeader bs).sense.toNat = true)
include sense

theorem readBlock_of_kind (h : kindNamed (parseHeader bs).kind = false) : readBlock x s =
    concludeWith x.no (headerReq x.block (parseHeader bs))
      (refusal .badKind (senseField (fieldId 1 0) [natVal (parseHeader bs).kind])) s := by
  simp only [readBlock, head, sense, h, Bool.false_eq_true, not_false_eq_true, not_true_eq_false, if_true, if_false, headerReq]

variable (kind : kindNamed (parseHeader bs).kind = true)
include kind

theorem readBlock_of_params_fault (h : s.load (addrs (x.block + 0x20) 32) = none) : readBlock x s =
    concludeWith x.no (headerReq x.block (parseHeader bs)) (refusal .busFault Sense.none) s := by
  simp only [readBlock, head, sense, kind, h, not_true_eq_false, if_false, headerReq]

theorem readBlock_of_params {ps : List Byte} {c : Call} (h : s.load (addrs (x.block + 0x20) 32) = some ps)
    (hc : decodeCall (parseHeader bs).kind (parseHeader bs).option ps = some c) :
    (∀ a, s.readData (parseHeader bs) = .error a →
      readBlock x s = concludeWith x.no (headerReq x.block (parseHeader bs)) a s) ∧
    (∀ d, s.readData (parseHeader bs) = .ok d → readBlock x s =
      admitRequest x.no { headerReq x.block (parseHeader bs) with data := d } c
        (decideCall x.no { headerReq x.block (parseHeader bs) with data := d } c) s) := by
  simp only [readBlock, head, sense, kind, h, hc, not_true_eq_false, if_false, headerReq]
  exact ⟨fun a e => by rw [e], fun d e => by rw [e]⟩

end Reading

/-- R166: a row answers with what its request's admission makes of the taken entry. -/
theorem exec_row {i : Instr} {q : Req} {c : Call} (h : requestOf i = some (q, c)) {s t : State}
    (ht : serve q c (fun no => decideCall no q c) (arrive (commandEnv i) s) = t) :
    exec i s = .next (if readsOnly c = true then t else settle t) := by
  rw [exec_of_requestOf h, ← ht]
  split <;> rfl

/-- Settles O11: the block read from memory and the row by one admission, after the reading that only the block needs. -/
theorem blockReadDispatches : Obligations.BlockReadDispatches := by
  refine ⟨fun e block s x bs => ?_, fun h s => ?_, fun a n gs => ⟨rfl, fun least most full => (dataFail_cases gs most).1 least full,
      fun before g after most => (dataFail_cases gs most).2 before g after⟩, fun e block s => ?_, fun i q c s hi => ?_,
    fun block s => ⟨takenEntry_eq_none block s, fun before y after split others mine => takenEntry_first split others mine⟩⟩
  · intro u h taken head q refused
    have read : ∀ {t}, readBlock x u = t → exec (.requestBlockRead e block) s = .next (settle t) :=
      fun ht => event_of_eq ((blockRead_of_taken taken).trans ht)
    refine ⟨fun bad => read (readBlock_of_sense head bad), fun sense bad => read (readBlock_of_kind head sense bad),
      fun sense kind fault => read (readBlock_of_params_fault head sense kind fault), fun ps c sense kind params call => ?_⟩
    obtain ⟨fails, admits⟩ := readBlock_of_params head sense kind params call
    refine ⟨fun a ha => read (fails a ha), fun d hd => ⟨fun a hc ha => ?_, fun data => ?_⟩⟩
    · exact read ((admits d hd).trans (admitRequest_of_dataFail sense hc ha))
    · obtain ⟨fifth, decided⟩ := admitRequest_cases (no := x.no) (q := { q with data := d })
        (decision := decideCall x.no { q with data := d } c) (s := u) sense data
      exact ⟨fun hc full => read ((admits d hd).trans (fifth hc full)), fun room => read ((admits d hd).trans (decided room))⟩
  · obtain ⟨plain, segments⟩ := readData_cases h s
    exact ⟨plain, fun listed bad => ⟨_, (segments listed).1 bad⟩, fun listed h1 h2 => ((segments listed).2 h1 h2).1,
      fun bs listed h1 h2 => ((segments listed).2 h1 h2).2 bs⟩
  · intro u
    exact ⟨fun none => event_of_eq (blockRead_of_none none),
      fun x taken fault => event_of_eq ((blockRead_of_taken taken).trans (readBlock_of_fault fault))⟩
  · intro u answers
    refine ⟨fun none => exec_row hi (serve_of_none none), fun x taken => ?_⟩
    have served : ∀ {t}, admitRequest x.no q c (decideCall x.no q c) u = t → answers t :=
      fun ht => exec_row hi ((serve_of_taken taken).trans ht)
    refine ⟨fun bad => served (admitRequest_of_sense bad), fun a sense hc ha => served (admitRequest_of_dataFail sense hc ha),
      fun sense data => ?_⟩
    obtain ⟨fifth, decided⟩ := admitRequest_cases (no := x.no) (decision := decideCall x.no q c) (s := u) sense data
    exact ⟨fun hc full => served (fifth hc full), fun room => served (decided room)⟩

end Sys2Proof.Machine


/-! ### The control window (O5) -/

namespace Sys2Proof.Machine

/-- R163: a bootstrap write by the interface state and the address. -/
theorem bootstrapWrite_cases (addr : U32) (s : State) :
    (s.port.state = .initialising ∨ s.port.state = .ready → bootstrapWrite addr s = s) ∧
    (s.port.state = .uninitialised ∨ s.port.state = .initFailed →
      (addr ≠ 0 → bootstrapWrite addr s =
        { s with port.initBlock := some addr.toNat, port.fault := .none, port.ringFault := none, port.state := .initialising }) ∧
      (addr = 0 → bootstrapWrite addr s =
        { s with port.initBlock := some addr.toNat, port.ringFault := none, port.state := .initFailed, port.fault := .badBlock
                 port.outcome := .none, port.attention := true })) := by
  refine ⟨fun h => if_neg ?_, fun h => ⟨fun set => ?_, fun zero => ?_⟩⟩
  · rcases h with h | h <;> rw [h] <;> decide
  · exact (if_pos h).trans (if_neg set)
  · exact (if_pos h).trans (if_pos zero)

/-- R165, R171: a strobe in READY begins a scan or leaves the rescan mark. -/
theorem strobe_cases (s : State) :
    (s.port.state = .ready → s.port.scan = .idle →
      strobe s = examineReturn { s with port.scan := .active, port.examined := 0 }) ∧
    (s.port.state = .ready → s.port.scan ≠ .idle → strobe s = examineReturn { s with port.rescan := true }) ∧
    (s.port.state ≠ .ready → strobe s = s) := by
  refine ⟨fun hs idle => ?_, fun hs runs => ?_, fun hs => if_neg hs⟩
  · rw [strobe, if_pos hs, if_pos idle]
  · rw [strobe, if_pos hs, if_neg runs]

/-- R161, R171: attention lowered outside INITIALISING. -/
theorem lowerAttention_cases (s : State) :
    (s.port.state = .ready → lowerAttention s = examineReturn { s with port.attention := false }) ∧
    (s.port.state = .initialising → lowerAttention s = s) ∧
    (s.port.state = .uninitialised ∨ s.port.state = .initFailed → lowerAttention s = { s with port.attention := false }) := by
  refine ⟨fun h => ?_, fun h => if_pos h, fun h => ?_⟩
  · exact (if_neg (by rw [h]; decide)).trans (if_pos h)
  · rcases h with h | h <;> exact (if_neg (by rw [h]; decide)).trans (if_neg (by rw [h]; decide))

/-- R166, R168: a held Await Panel Exit. -/
theorem isAwait_eq (y : Entry) : y.isAwait =
    (y.req.any (fun r => r.2 == .awaitPanelExit) && (y.stage == .running || y.stage == .posting)) := by
  unfold Entry.isAwait
  split
  next q hq hs => rw [hq, hs]; rfl
  next q hq hs => rw [hq, hs]; rfl
  next running posting =>
    symm
    rw [Bool.and_eq_false_iff, ← Bool.not_eq_true, ← Bool.not_eq_true]
    by_contra both
    rw [not_or, not_not, not_not, Option.any_eq_true, Bool.or_eq_true, beq_iff_eq, beq_iff_eq] at both
    obtain ⟨⟨⟨q, c⟩, hq, hc⟩, hs⟩ := both
    cases beq_iff_eq.1 hc
    rcases hs with hs | hs
    · exact running q hq hs
    · exact posting q hq hs

/-- Settles O5: each write by the interface state, the reset by its definition, and the window byte by byte. -/
theorem writesOfTheControlWindow : Obligations.WritesOfTheControlWindow := by
  refine ⟨fun e addr s => ?_, fun e s => ?_, fun e s => rfl, fun s => ?_, ⟨rfl, rfl, rfl, fun row => rfl, rfl, rfl⟩⟩
  · intro u begun
    obtain ⟨kept, taken⟩ := bootstrapWrite_cases addr u
    exact ⟨fun h => congrArg _ (kept h),
      fun h => ⟨fun set => congrArg _ ((taken h).1 set), fun zero => congrArg _ ((taken h).2 zero)⟩⟩
  · intro u
    obtain ⟨begins, marks, closed⟩ := strobe_cases u
    obtain ⟨examines, waits, lowers⟩ := lowerAttention_cases u
    exact ⟨fun hs idle => congrArg _ (begins hs idle), fun hs runs => congrArg _ (marks hs runs), fun hs => congrArg _ (closed hs),
      fun hs => congrArg _ (examines hs), fun hs => congrArg _ (waits hs), fun hs => congrArg _ (lowers hs)⟩
  · have awaits := funext isAwait_eq
    simp only [State.window, State.statusSummary, awaits]
    rfl

end Sys2Proof.Machine

/-! ### The end of a bootstrap (O6) -/

namespace Sys2Proof.Machine

/-- R164, step 2: rings that pass: both present, of 4 to 64 slots, and apart. -/
theorem ringsOk_iff (out n ret m : Nat) : ringsOk out n ret m = true ↔
    out ≠ 0 ∧ ret ≠ 0 ∧ 4 ≤ n ∧ n ≤ 64 ∧ 4 ≤ m ∧ m ≤ 64 ∧ (out + 8 * n ≤ ret ∨ ret + 8 * m ≤ out) := by
  simp only [ringsOk, Bool.and_eq_true, Bool.or_eq_true, bne_iff_ne, decide_eq_true_eq, and_assoc]

/-- R164, step 3: the constants by the flag, the line state, a pending arrival and the range checks. -/
theorem judgeConsts_cases (k : Consts) (s : State) :
    judgeConsts false k s = { s with port.outcome := .absent } ∧
    (s.line.state ≠ .off → judgeConsts true k s = { s with port.outcome := .kept }) ∧
    (s.line.state = .off → s.head.arrival ≠ none → judgeConsts true k s = { s with port.outcome := .refused 0 }) ∧
    (s.line.state = .off → s.head.arrival = none →
      (∀ f, constsFirstFail k s.line.store = some f → judgeConsts true k s = { s with port.outcome := .refused f.row }) ∧
      (constsFirstFail k s.line.store = none → judgeConsts true k s = { applyConsts k s with port.outcome := .applied })) := by
  refine ⟨rfl, fun on => if_pos on, fun off pending => ?_, fun off clear => ⟨fun f fails => ?_, fun pass => ?_⟩⟩
  · exact (if_neg (not_not.2 off)).trans (if_pos (Option.isSome_iff_ne_none.2 pending))
  · simp only [judgeConsts, off, clear, fails, ne_eq, not_true_eq_false, if_false, Option.isSome_none, Bool.false_eq_true]
  · simp only [judgeConsts, off, clear, pass, ne_eq, not_true_eq_false, if_false, Option.isSome_none, Bool.false_eq_true]

section Block

variable {s : State} {a : Nat} (waits : s.port.state = .initialising) (block : s.port.initBlock = some a)
include waits block

theorem bootstrapEnd_of_fault (h : s.load (addrs a 52) = none) : bootstrapEnd s = initFails .busFault s := by
  simp only [bootstrapEnd, waits, block, orZero, Option.getD_some, h, ne_eq, not_true_eq_false, if_false]

theorem bootstrapEnd_of_block {bs : List Byte} (h : s.load (addrs a 52) = some bs) : bootstrapEnd s =
    if ringsOk (u32At bs 0).toNat (u16At bs 4).toNat (u32At bs 8).toNat (u16At bs 6).toNat then
      ready (u32At bs 0).toNat (u16At bs 4).toNat (u32At bs 8).toNat (u16At bs 6).toNat
        (judgeConsts (bitSet (byteAt bs 0x0C).toNat 0) (parseConsts (bs.drop 0x10)) s)
    else initFails .badRing s := by
  simp only [bootstrapEnd, waits, block, orZero, Option.getD_some, h, ne_eq, not_true_eq_false, if_false]

end Block

/-- Settles O6: the block by its reading and its rings, and the constants by their judgement. -/
theorem bootstrapEndsReadyOrFailed : Obligations.BootstrapEndsReadyOrFailed := by
  intro e s u fail
  refine ⟨fun idle => event_of_eq (if_pos idle), fun waits a block => ⟨fun fault => ?_, fun bs read => ?_⟩⟩
  · exact event_of_eq (bootstrapEnd_of_fault waits block fault)
  intro out n m ret good flag k up
  have rings : ringsOk out n ret m = true ↔ good := ringsOk_iff out n ret m
  have ends := bootstrapEnd_of_block waits block read
  have readied : ∀ (b : Bool) (t : State) (o : ConstsOutcome), good → flag = b →
      judgeConsts b k u = { t with port.outcome := o } → exec (.bootstrapEnd e) s = .next (settle (up t o)) := by
    rintro b t o pass rfl judged
    exact event_of_eq ((ends.trans (if_pos (rings.2 pass))).trans (congrArg (ready out n ret m) judged))
  obtain ⟨absent, kept, pending, judged⟩ := judgeConsts_cases k u
  exact ⟨fun bad => event_of_eq (ends.trans (if_neg (rings.not.2 bad))), fun pass unset => readied false u .absent pass unset absent,
    fun pass set on => readied true u .kept pass set (kept on),
    fun pass set off clear => ⟨fun f fails => readied true u (.refused f.row) pass set ((judged off clear).1 f fails),
      fun passes => readied true (applyConsts k u) .applied pass set ((judged off clear).2 passes)⟩,
    fun pass set off arrival => readied true u (.refused 0) pass set (pending off arrival)⟩

end Sys2Proof.Machine


/-! ### What a completion and the requests that only read change (O14) -/

namespace Sys2Proof.Machine

/-- R170, R172: nothing but shared memory and the port changed, the interface state staying, or a ring fault ended the interface. -/
def PortOnly (s t : State) : Prop :=
  (∃ mem port, t = { s with mem := mem, port := port } ∧ port.state = s.port.state) ∨
    (s.port.state = .ready ∧ t.port.state = .initFailed)

namespace PortOnly

variable {s t u : State}

theorem refl (s : State) : PortOnly s s := .inl ⟨s.mem, s.port, rfl, rfl⟩

theorem trans (a : PortOnly s t) (b : PortOnly t u) : PortOnly s u := by
  rcases a with ⟨mem, port, rfl, same⟩ | ⟨ready, failed⟩
  · rcases b with ⟨mem', port', rfl, same'⟩ | ⟨ready, failed⟩
    · exact .inl ⟨mem', port', rfl, same'.trans same⟩
    · exact .inr ⟨same ▸ ready, failed⟩
  · rcases b with ⟨mem', port', rfl, same'⟩ | ⟨_, failed'⟩
    · exact .inr ⟨ready, same'.trans failed⟩
    · exact .inr ⟨ready, failed'⟩

/-- Memory and the port's records written. -/
theorem of_eq {mem : Memory} {port : Port} (h : t = { s with mem := mem, port := port }) (hp : port.state = s.port.state) :
    PortOnly s t := .inl ⟨mem, port, h, hp⟩

theorem ite {p : Prop} [Decidable p] (a : PortOnly s t) (b : PortOnly s u) : PortOnly s (if p then t else u) := by
  split <;> assumption

/-- While the interface state stays, everything else does. -/
theorem kept (h : PortOnly s t) (hp : t.port.state = s.port.state) : ∃ mem port, t = { s with mem := mem, port := port } := by
  rcases h with ⟨mem, port, rfl, _⟩ | ⟨ready, failed⟩
  · exact ⟨mem, port, rfl⟩
  · rw [ready, failed] at hp
    cases hp

end PortOnly

theorem store_portOnly (ps : List (Nat × Byte)) (s : State) : PortOnly s (s.store ps) := .of_eq rfl rfl

theorem ringFault_portOnly {s : State} (h : s.port.state = .ready) (ret : Bool) (slot : Nat) : PortOnly s (ringFault ret slot s) :=
  .inr ⟨h, rfl⟩

theorem readReturn_portOnly (s : State) : PortOnly s (readReturn s) := by
  rcases readReturn_cases s with e | ⟨ready, i, e⟩ <;> rw [e]
  · exact .refl s
  · exact ringFault_portOnly ready true i

theorem posted_portOnly (it : PostItem) (r : Ring) (s : State) : PortOnly s (posted it r s) := by
  obtain ⟨port, e⟩ := posted_port it r s
  exact .of_eq e ((congrArg (fun t => t.port.state) e).symm.trans (posted_state it r s))

theorem postItems_portOnly (l : List PostItem) (s : State) : PortOnly s (postItems l s) := by
  induction l generalizing s with
  | nil => exact .trans (.of_eq rfl rfl) (readReturn_portOnly _)
  | cons it rest ih =>
    unfold postItems
    split
    next r ready _ =>
      simp only
      split
      · split
        · split
          · exact ((store_portOnly _ s).trans (posted_portOnly it r _)).trans (ih _)
          · exact (store_portOnly _ s).trans (ringFault_portOnly (s := s.store _) ready _ _)
        · exact .of_eq rfl rfl
      · exact ringFault_portOnly ready _ _
    next => exact .refl s

theorem enqueue_portOnly (no : Nat) (items : List PostItem) (s : State) : PortOnly s (enqueue no items s) := by
  rw [enqueue_eq, setStage_eq]
  split
  · exact .trans (.of_eq rfl rfl) (postItems_portOnly _ _)
  · exact .refl s

theorem concludeWith_portOnly (no : Nat) (q : Req) (a : Answer) (s : State) : PortOnly s (concludeWith no q a s) := by
  obtain ⟨mem, e⟩ := writeAnswer_mem q a s
  exact .trans (.of_eq e rfl) (enqueue_portOnly _ _ _)

theorem conclude_portOnly (no : Nat) (a : Answer) (s : State) : PortOnly s (conclude no a s) := by
  unfold conclude
  split
  · exact .refl s
  · split
    · exact .refl s
    · exact concludeWith_portOnly _ _ _ _

/-- R14, R32: a request that waits changes its entry alone. -/
theorem holdWaiting_portOnly (no : Nat) (w : Await) (s : State) : PortOnly s (holdWaiting no w s) := .of_eq rfl rfl

theorem setReq_portOnly (no : Nat) (q : Req) (c : Call) (s : State) : PortOnly s (setReq no q c s) := .of_eq rfl rfl

/-- A request that only reads completes at once, or waits for a busy slot (R14, R32). -/
theorem decideCall_portOnly {c : Call} (hc : readsOnly c = true) (no : Nat) (q : Req) (s : State) :
    PortOnly s (decideCall no q c s) := by
  have concluded : ∀ a, PortOnly s (conclude no a s) := fun a => conclude_portOnly no a s
  have waits : ∀ w, PortOnly s (holdWaiting no w s) := fun w => holdWaiting_portOnly no w s
  cases c <;> simp only [readsOnly, Bool.false_eq_true] at hc
  case readPattern alternate => exact .ite (concluded _) (.ite (waits _) (.ite (concluded _) (concluded _)))
  case measurePattern a =>
    refine .ite (concluded _) (.ite (concluded _) (.ite (concluded _) (.ite (waits _) ?_)))
    split
    · exact concluded _
    · exact concluded _
    · exact .ite (concluded _) (concluded _)
  case readFibreClass cls =>
    simp only [decideCall, decideReadClass]
    split <;> exact concluded _
  case readRoll =>
    refine .ite (concluded _) ?_
    split <;> exact concluded _
  case readOrder =>
    refine .ite (concluded _) (.ite (concluded _) ?_)
    split <;> exact concluded _
  case readPanel =>
    refine .ite (concluded _) (.ite (concluded _) ?_)
    split <;> exact concluded _
  case readWebMap => exact concluded _
  case readZones cells => exact concluded _
  case readLineStatus constants => exact concluded _

/-- R166: the port's checks complete a request, or hand it to its decision. -/
theorem admitRequest_portOnly {decision : State → State} (hd : ∀ t, PortOnly t (decision t)) (no : Nat) (q : Req) (c : Call)
    (s : State) : PortOnly s (admitRequest no q c decision s) := by
  have refused : ∀ a, PortOnly s (concludeWith no q a s) := fun a => concludeWith_portOnly no q a s
  unfold admitRequest
  split
  · exact refused _
  · split
    · exact refused _
    · split
      · exact refused _
      · exact (setReq_portOnly no q c s).trans (hd _)

theorem serve_portOnly {decision : Nat → State → State} (hd : ∀ no t, PortOnly t (decision no t)) (q : Req) (c : Call) (s : State) :
    PortOnly s (serve q c decision s) := by
  unfold serve
  split
  · exact .refl s
  · exact admitRequest_portOnly (hd _) _ q c s

/-- R14, R33, R38, R46, R62, R103, R104, R125, R145: a row whose request only reads. -/
theorem exec_portOnly {i : Instr} {q : Req} {c : Call} {s t : State} (hi : requestOf i = some (q, c)) (hc : readsOnly c = true)
    (ht : exec i s = .next t) : PortOnly (arrive (commandEnv i) s) t := by
  rw [exec_of_requestOf hi, if_pos hc] at ht
  cases ht
  exact serve_portOnly (fun no u => decideCall_portOnly hc no q u) q c _

/-- Settles O14: a completion by what it posts, and the nine reading requests by their decisions, each of which completes or waits. -/
theorem completionsAndQueriesChangeNothingElse : Obligations.CompletionsAndQueriesChangeNothingElse := by
  refine ⟨fun no a s same => ?_, fun i s t e query ht same => ?_⟩
  · obtain ⟨mem, port, e⟩ := (conclude_portOnly no a s).kept same
    rw [e]
  · have reads : ∃ q c, requestOf i = some (q, c) ∧ readsOnly c = true ∧ commandEnv i = e := by
      rcases query with ⟨q, b, rfl⟩ | ⟨q, b, rfl⟩ | ⟨q, b, rfl⟩ | ⟨q, rfl⟩ | ⟨q, rfl⟩ | ⟨q, rfl⟩ | ⟨q, rfl⟩ |
        ⟨q, b, rfl⟩ | ⟨q, b, rfl⟩ <;>
        exact ⟨_, _, rfl, rfl, rfl⟩
    obtain ⟨q, c, hi, hc, rfl⟩ := reads
    obtain ⟨mem, port, rfl⟩ := (exec_portOnly hi hc ht).kept same
    rfl

end Sys2Proof.Machine


/-! ### What a completion writes (O13) -/

namespace Sys2Proof.Machine

/-! #### Stores to shared memory -/

section Stores

variable {s : State}

/-- R172: a write that faults ends the store, and one that does not goes on with the rest (log entry 4). -/
theorem store_cons (a : Nat) (b : Byte) (ps : List (Nat × Byte)) (s : State) :
    (faultsAt s.bus.writes a = true → s.store ((a, b) :: ps) = s ∧ s.storeOk ((a, b) :: ps) = false) ∧
    (faultsAt s.bus.writes a = false →
      s.store ((a, b) :: ps) = State.store { s with mem := s.mem.write a b } ps ∧
      s.storeOk ((a, b) :: ps) = State.storeOk { s with mem := s.mem.write a b } ps) := by
  refine ⟨fun h => ?_, fun h => ?_⟩
  · simp only [State.store, State.storeOk, Memory.store, h, if_true, and_self]
  · simp only [State.store, State.storeOk, Memory.store, h, Bool.false_eq_true, if_false, and_self]

theorem store_wf (h : s.mem.wf = true) (ps : List (Nat × Byte)) : (s.store ps).mem.wf = true := Memory.store_wf h _ ps

/-- What is not stored to reads as before. -/
theorem store_read_other (h : s.mem.wf = true) {ps : List (Nat × Byte)} {y : Nat} (hy : y ∉ ps.map Prod.fst) :
    (s.store ps).mem.read y = s.mem.read y :=
  Memory.store_read_other h _ fun p hp e => hy (List.mem_map.2 ⟨p, hp, e⟩)

theorem faultsAt_iff (bad : List Span) (a : Nat) :
    faultsAt bad a = true ↔ 2 ^ 32 ≤ a ∨ ∃ p ∈ bad, p.base.toNat ≤ a ∧ a < p.base.toNat + p.len := by
  simp only [faultsAt, Bool.or_eq_true, decide_eq_true_eq, List.any_eq_true, Bool.and_eq_true]

theorem faultsAt_clear {a : Nat} (ha : a < 2 ^ 32) : faultsAt [] a = false := by
  rw [← Bool.not_eq_true, faultsAt_iff]
  rintro (h | ⟨p, hp, _⟩)
  · omega
  · cases hp

theorem storeOk_clear (clear : s.bus.writes = []) {ps : List (Nat × Byte)} (h : ∀ p ∈ ps, p.1 < 2 ^ 32) : s.storeOk ps = true := by
  induction ps generalizing s with
  | nil => rfl
  | cons p ps ih =>
    have good : faultsAt s.bus.writes p.1 = false := clear ▸ faultsAt_clear (h p List.mem_cons_self)
    exact ((store_cons p.1 p.2 ps s).2 good).2.trans
      (ih (s := { s with mem := s.mem.write p.1 p.2 }) clear fun q hq => h q (List.mem_cons_of_mem _ hq))

theorem spread_addresses (a : Nat) (bs : List Byte) (y : Nat) : y ∈ (spread a bs).map Prod.fst ↔ a ≤ y ∧ y < a + bs.length := by
  induction bs generalizing a with
  | nil => simp only [spread, List.map_nil, List.not_mem_nil, List.length_nil, false_iff]; omega
  | cons b bs ih => simp only [spread, List.map_cons, List.mem_cons, ih, List.length_cons]; omega

theorem not_mem_spread {a y : Nat} {bs : List Byte} (apart : y < a ∨ a + bs.length ≤ y) :
    y ∉ (spread a bs).map Prod.fst := fun m => by
  have := (spread_addresses a bs y).1 m
  omega

/-- Where no access faults, bytes stored at consecutive addresses read back. -/
theorem store_spread_read (h : s.mem.wf = true) (clear : s.bus.writes = []) {a : Nat} {bs : List Byte}
    (ha : a + bs.length ≤ 2 ^ 32)
    {i : Nat} (hi : i < bs.length) : (s.store (spread a bs)).mem.read (a + i) = bs.getD i 0 := by
  induction bs generalizing s a i with
  | nil => cases hi
  | cons b bs ih =>
    rw [List.length_cons] at ha hi
    have good : faultsAt s.bus.writes a = false := clear ▸ faultsAt_clear (by omega)
    have written := Memory.write_wf h a b
    rw [spread, ((store_cons a b _ s).2 good).1]
    cases i with
    | zero =>
      have kept : a ∉ (spread (a + 1) bs).map Prod.fst := not_mem_spread (.inl (Nat.lt_succ_self a))
      exact (store_read_other (s := { s with mem := s.mem.write a b }) written kept).trans
        ((Memory.read_write h a a b).trans (if_pos rfl))
    | succ i =>
      rw [show a + (i + 1) = a + 1 + i by omega]
      exact ih (s := { s with mem := s.mem.write a b }) written clear (by omega) (by omega)

end Stores

/-! #### The sense record and its area (R166, R178) -/

theorem senseRoom_of_given {n : Nat} (h1 : 8 ≤ n) (h2 : n ≤ 64) : senseRoom n = n := by
  have ok : senseOk n = true := by simp only [senseOk, h1, h2, decide_true, Bool.and_self, Bool.or_true]
  rw [senseRoom, if_neg (by omega), if_neg (by omega), if_pos ok]

theorem senseRoom_le (n : Nat) : senseRoom n ≤ 64 := by
  unfold senseRoom
  split_ifs with h0 h1 h2
  · decide
  · decide
  · simp only [senseOk, Bool.or_eq_true, beq_iff_eq, Bool.and_eq_true, decide_eq_true_eq] at h2
    omega
  · decide

/-- R178: the record in full. -/
theorem senseBytes_eq (x : Sense) (c : Code) (key : Nat) : x.bytes c key =
    [b8 (8 + 4 * x.vals.length), b8 c.value, b8 x.field, 0] ++ le 4 (x.key.getD key) ++
      x.vals.flatMap (fun v => le 4 (v % 2 ^ 32).toNat) := by
  simp only [Sense.bytes, BitVec.toNat_ofInt, le]
  rfl

theorem senseArea_length (x : Sense) (c : Code) (key alloc : Nat) : (x.area c key alloc).length = senseRoom alloc := by
  rw [Sense.area, List.length_take, List.length_append, zeros_length]
  omega

/-- R170: the area holds the record, cut at the allocation, and then 0. -/
theorem senseArea_getD (x : Sense) (c : Code) (key alloc : Nat) {i : Nat} (hi : i < senseRoom alloc) :
    (x.area c key alloc).getD i 0 = (x.bytes c key).getD i 0 := by
  rw [Sense.area, List.getD_eq_getElem?_getD, List.getElem?_take_of_lt hi, ← List.getD_eq_getElem?_getD]
  by_cases h : i < (x.bytes c key).length
  · exact List.getD_append _ _ _ _ h
  · rw [List.getD_append_right _ _ _ _ (Nat.not_lt.1 h), List.getD_eq_default _ _ (Nat.not_lt.1 h), zeros,
      List.getD_eq_getElem?_getD, List.getElem?_replicate]
    split <;> rfl

/-! #### The writes of a completion, in order (R170) -/

/-- R170: the sense area of an answer; there is none at DONE. -/
def Answer.senseArea (b : Answer) (q : Req) : List Byte :=
  if b.code = .done then [] else b.sense.area b.code q.key.toNat q.sense.toNat

theorem writeAnswer_eq (q : Req) (a : Answer) (s : State) : writeAnswer q a s =
    ((((s.store (resultWrites q a)).store (spread (q.block.toNat + 0x40) ((settledAnswer q a s).senseArea q))).store
      (spread (q.block.toNat + 4) (le 2 (settledAnswer q a s).detail))).store
      (spread (q.block.toNat + 8) (le 2 (settledAnswer q a s).residual))).store
      (spread (q.block.toNat + 3) [b8 (settledAnswer q a s).code.value]) := by
  simp only [writeAnswer, Answer.senseArea]
  split <;> rfl

theorem resultWrites_addresses (q : Req) (a : Answer) (y : Nat) : y ∈ (resultWrites q a).map Prod.fst ↔
    y ∈ a.data.map Prod.fst ∨ y ∈ (paramWrites q.block.toNat a.params).map Prod.fst := by
  rw [resultWrites]
  split <;> simp only [List.map_append, List.mem_append, or_comm]

theorem senseArea_room {b : Answer} (h : b.code ≠ .done) (q : Req) : (b.senseArea q).length = senseRoom q.sense.toNat := by
  rw [Answer.senseArea, if_neg h, senseArea_length]

theorem senseArea_of_done {b : Answer} (h : b.code = .done) (q : Req) : b.senseArea q = [] := if_pos h

/-- R170: an address outside every part of a completion reads as before. -/
theorem writeAnswer_read_other {q : Req} {a : Answer} {s : State} (h : s.mem.wf = true) {y : Nat}
    (results : y ∉ (resultWrites q a).map Prod.fst)
    (sense : (settledAnswer q a s).code = .done ∨ y < q.block.toNat + 0x40 ∨ q.block.toNat + 0x40 + senseRoom q.sense.toNat ≤ y)
    (fields : y ∉ [q.block.toNat + 3, q.block.toNat + 4, q.block.toNat + 5, q.block.toNat + 8, q.block.toNat + 9]) :
    (writeAnswer q a s).mem.read y = s.mem.read y := by
  simp only [List.mem_cons, List.not_mem_nil, or_false, not_or] at fields
  obtain ⟨f3, f4, f5, f8, f9⟩ := fields
  have area : y ∉ (spread (q.block.toNat + 0x40) ((settledAnswer q a s).senseArea q)).map Prod.fst := by
    by_cases hd : (settledAnswer q a s).code = .done
    · rw [senseArea_of_done hd]
      exact List.not_mem_nil
    · exact not_mem_spread (senseArea_room hd q ▸ sense.resolve_left hd)
  have wf1 := store_wf h (resultWrites q a)
  have wf2 := store_wf wf1 (spread (q.block.toNat + 0x40) ((settledAnswer q a s).senseArea q))
  have wf3 := store_wf wf2 (spread (q.block.toNat + 4) (le 2 (settledAnswer q a s).detail))
  have wf4 := store_wf wf3 (spread (q.block.toNat + 8) (le 2 (settledAnswer q a s).residual))
  rw [writeAnswer_eq, store_read_other wf4, store_read_other wf3, store_read_other wf2, store_read_other wf1 area,
    store_read_other h results]
  all_goals
    refine not_mem_spread ?_
    simp only [le_length, List.length_singleton]
    omega

/-- R170: where no access faults, the fields that a completion writes last read back as the answer gives them. -/
theorem writeAnswer_reads_back {q : Req} {a : Answer} {s : State} (h : s.mem.wf = true) (clear : s.bus.writes = [])
    (room : q.block.toNat + 0x80 ≤ 2 ^ 32) (ok : settledAnswer q a s = a) :
    (writeAnswer q a s).mem.read (q.block.toNat + 3) = b8 a.code.value ∧
    (writeAnswer q a s).mem.read (q.block.toNat + 4) = b8 a.detail ∧
    (writeAnswer q a s).mem.read (q.block.toNat + 5) = b8 (a.detail / 256) ∧
    (writeAnswer q a s).mem.read (q.block.toNat + 8) = b8 a.residual ∧
    (writeAnswer q a s).mem.read (q.block.toNat + 9) = b8 (a.residual / 256) ∧
    (a.code ≠ .done → ∀ i, i < senseRoom q.sense.toNat →
      (writeAnswer q a s).mem.read (q.block.toNat + 0x40 + i) = (a.sense.bytes a.code q.key.toNat).getD i 0) := by
  have most := senseRoom_le q.sense.toNat
  have eq := writeAnswer_eq q a s
  rw [ok] at eq
  rw [eq]
  have wf1 := store_wf h (resultWrites q a)
  have wf2 := store_wf wf1 (spread (q.block.toNat + 0x40) (a.senseArea q))
  have wf3 := store_wf wf2 (spread (q.block.toNat + 4) (le 2 a.detail))
  have wf4 := store_wf wf3 (spread (q.block.toNat + 8) (le 2 a.residual))
  have code := fun {y : Nat} (hy : y < q.block.toNat + 3 ∨ q.block.toNat + 4 ≤ y) =>
    store_read_other wf4 (not_mem_spread (a := q.block.toNat + 3) (bs := [b8 a.code.value]) hy)
  have residual := fun {y : Nat} (hy : y < q.block.toNat + 8 ∨ q.block.toNat + 10 ≤ y) =>
    store_read_other wf3 (not_mem_spread (a := q.block.toNat + 8) (bs := le 2 a.residual) hy)
  have detail := fun {y : Nat} (hy : y < q.block.toNat + 4 ∨ q.block.toNat + 6 ≤ y) =>
    store_read_other wf2 (not_mem_spread (a := q.block.toNat + 4) (bs := le 2 a.detail) hy)
  have two : ∀ v, (le 2 v).length = 2 := fun v => le_length 2 v
  refine ⟨?_, ?_, ?_, ?_, ?_, fun fails i hi => ?_⟩
  · exact store_spread_read (i := 0) wf4 clear (by rw [List.length_singleton]; omega) Nat.one_pos
  · rw [code (by omega), residual (by omega)]
    exact store_spread_read (i := 0) wf2 clear (by rw [two]; omega) (by rw [two]; decide)
  · rw [code (by omega), residual (by omega)]
    exact store_spread_read (i := 1) wf2 clear (by rw [two]; omega) (by rw [two]; decide)
  · rw [code (by omega)]
    exact store_spread_read (i := 0) wf3 clear (by rw [two]; omega) (by rw [two]; decide)
  · rw [code (by omega)]
    exact store_spread_read (i := 1) wf3 clear (by rw [two]; omega) (by rw [two]; decide)
  · have length := senseArea_room fails q
    rw [code (by omega), residual (by omega), detail (by omega),
      store_spread_read (s := s.store (resultWrites q a)) wf1 clear (by rw [length]; omega) (by rw [length]; exact hi),
      Answer.senseArea, if_neg fails, senseArea_getD _ _ _ _ hi]

/-- R170: an answer whose results fault nowhere stands. -/
theorem settledAnswer_clear {q : Req} {a : Answer} {s : State} (clear : s.bus.writes = [])
    (h : ∀ p ∈ a.data ++ paramWrites q.block.toNat a.params, p.1 < 2 ^ 32) : settledAnswer q a s = a := by
  refine if_pos (storeOk_clear clear fun p hp => h p ?_)
  rw [resultWrites] at hp
  split at hp
  · exact hp
  · exact List.mem_append.2 (List.mem_append.1 hp).symm

/-! #### Completions by what the table holds (R170, R171) -/

theorem conclude_of_gone {no : Nat} {s : State} (h : s.entry no = none) (a : Answer) : conclude no a s = s := by
  simp only [conclude, h]

theorem conclude_of_entry {no : Nat} {s : State} {y : Entry} (h : s.entry no = some y) (a : Answer) :
    (y.req = none → conclude no a s = s) ∧
    (∀ q c, y.req = some (q, c) → conclude no a s = concludeWith no q a s) := by
  simp only [conclude, h]
  exact ⟨fun none => by rw [none], fun q c known => by rw [known]⟩

/-- Log entry 8: what is known of a request whose header was not read. -/
theorem unreadReq_cases (block : Nat) (s : State) :
    (∀ n, s.load [block + 2] = some [n] → s.unreadReq block = ⟨BitVec.ofNat 32 block, n, 0, .contiguous 0 0⟩) ∧
    (s.load [block + 2] = none → s.unreadReq block = ⟨BitVec.ofNat 32 block, 1, 0, .contiguous 0 0⟩) := by
  rw [State.unreadReq]
  exact ⟨fun n read => by rw [read], fun fault => by rw [fault]⟩

/-- Settles O13: the writes of a completion as a chain of stores, each of which leaves every other address; the sense record and the codes
by their bytes; the completion by what the table holds. -/
theorem completionWritesItsFields : Obligations.CompletionWritesItsFields := by
  refine ⟨fun q a s wf => ⟨?_, fun y data params sense fields => ?_⟩, fun q a s wf => ?_, fun q a s => ⟨rfl, ?_⟩,
    ⟨rfl, rfl, fun n h1 h2 => senseRoom_of_given h1 h2⟩, fun block off a b bs ps => ⟨rfl, rfl, rfl, rfl⟩,
    fun s a b ps => ⟨rfl, rfl, (store_cons a b ps s).1, (store_cons a b ps s).2, fun wf y => Memory.read_write wf a y b,
      faultsAt_iff _ a⟩,
    fun no a s => ⟨fun gone => conclude_of_gone gone a, fun y held => (conclude_of_entry held a).1,
      fun y q c held => (conclude_of_entry held a).2 q c, fun q => rfl, rfl, rfl, fun ws => ⟨rfl, rfl⟩⟩,
    fun no block a s => ?_, rfl⟩
  · obtain ⟨mem, e⟩ := writeAnswer_mem q a s
    rw [e]
  · exact writeAnswer_read_other wf (by rw [resultWrites_addresses, not_or]; exact ⟨data, params⟩) sense fields
  · intro block x sense clear room addresses m
    have back := writeAnswer_reads_back wf clear room (settledAnswer_clear clear addresses)
    rw [senseBytes_eq] at back
    exact back
  · rw [writeAnswer_eq, Answer.senseArea, Sense.area, senseBytes_eq]
    rfl
  · obtain ⟨known, faults⟩ := unreadReq_cases block s
    exact ⟨fun n read => by rw [concludeUnread, known n read], fun fault => by rw [concludeUnread, faults fault]⟩

end Sys2Proof.Machine

/-! ### A step with commands waiting (O1) -/

namespace Sys2Proof.Machine

/-- What a step does while commands wait; on an empty queue it is a tick (O2). -/
theorem step_of_pending_cons {s : State} {c : Instr} {rest : List Instr} (front : s.pending = c :: rest) :
    step s = exec c { s with pending := rest } := by
  rw [step, front]

/-- Settles O1: the queue of the state stepped from is written out, so its front is known. -/
theorem stepRunsTheFrontCommand : Obligations.StepRunsTheFrontCommand :=
  fun _ _ _ => step_of_pending_cons rfl

end Sys2Proof.Machine
